-- ==== Sys2Proof/Word.lean ====
section
/-! DEFINITION. The command word and the byte: the two widths of the spec's command format
(30_encoding.md R80, R87). -/

namespace Sys2Proof

/-- The 32-bit command word `W` of 30_encoding.md R87. It is a number: its byte order on a bus is outside the spec. -/
abbrev Word := BitVec 32

/-- One colour channel, 0 to 255 (30_encoding.md R80). -/
abbrev Byte := BitVec 8

end Sys2Proof
end

