-- ==== Sys2Proof/Config.lean ====
section
/-! DEFINITION. What an instance of the block fixes (00_scope.md R5): the pin and the channel it is bound to, the
longest pulse its generator can hold, and the base clock. -/

namespace Sys2Proof

/-- The output pin an instance is bound to: an opaque token (00_scope.md R5, `PIN`). Only its equality matters. -/
structure PinToken where
  id : Nat
  deriving DecidableEq, Repr

/-- The pulse-generation channel an instance is bound to: an opaque token (00_scope.md R5, `CHANNEL`). -/
structure ChannelToken where
  id : Nat
  deriving DecidableEq, Repr

/-- The structural parameters of one instance (00_scope.md R5). They stand in State because the host's step takes no
other argument; no step changes them. -/
structure Instance where
  pin      : PinToken
  channel  : ChannelToken
  /-- `MAX_TICKS`, the largest duration one pulse can hold; `none` is infinity (92_eei_decisions.md D9). -/
  maxTicks : Option Nat
  deriving DecidableEq, Repr

/-- `BASE_HZ`, the pulse generator's base clock before division (00_scope.md R5): a free value, informative only. No
rule reads it, because the block reads `TICKS_HZ` back instead of computing it (60_exceptions.md R181). Log 6. -/
opaque Config.baseHz : Nat

end Sys2Proof
end

