-- ==== Sys2Proof/Machine/Formats.lean ====
section
/-! DEFINITION. The value types of 00_scope.md R8 and 30_encoding.md R80 to R88, and the events the host can offer. -/

namespace Sys2Proof.Machine

/-- A logic level (30_encoding.md R82). -/
inductive Level where
  | low
  | high
  deriving DecidableEq, Repr

/-- A level held for a number of ticks (30_encoding.md R83). -/
structure Pulse where
  level : Level
  ticks : Nat
  deriving DecidableEq, Repr

/-- One bit's worth of signal: the high pulse goes out first, then the low pulse (30_encoding.md R84). -/
structure Pair where
  high : Pulse
  low  : Pulse
  deriving DecidableEq, Repr

/-- A pulse train: pulses sent back to back as one atomic operation (00_scope.md R8). -/
abbrev Train := List Pulse

/-- The train buffer `train[0..23]`: 24 slots, each empty or one pair (10_state.md R30). -/
abbrev TrainBuffer := Vector (Option Pair) 24

/-- The two error kinds (60_exceptions.md R170); an error records nothing beyond its kind (R173). -/
inductive HwError where
  | hardwareConfigError
  | transmitError
  deriving DecidableEq, Repr

/-- What an accepted command returns (00_scope.md R8). -/
inductive Result where
  | ok
  | err (e : HwError)
  deriving DecidableEq, Repr

/-- One entry of the wire history (10_state.md R31). -/
inductive WireEvent where
  /-- The wire carried exactly this train. -/
  | sent (tr : Train)
  /-- A transmission failed; what the wire carried is unspecified (20_memory.md R55). -/
  | unspecified
  deriving DecidableEq, Repr

/-- The sequencing state (10_state.md R24). `transmitting` exists only inside a step. -/
inductive Phase where
  | unbound
  | idle
  | transmitting
  deriving DecidableEq, Repr

/-- The reasons of `refuse(reason)` (60_exceptions.md R185; the last one from 10_state.md R23). -/
inductive RefuseReason where
  /-- `NEW` while a Driver exists (40_construct.md R111). -/
  | newWhileBound
  /-- `SET_PIXEL` while no Driver exists (41_set_pixel.md R141). -/
  | setPixelWithoutDriver
  /-- A derived duration is zero ticks (40_construct.md R115(b)). -/
  | zeroTickPulse
  /-- A command word outside the command map (30_encoding.md R96). -/
  | reservedCommand
  /-- A command offered while another one runs (70_reset_and_hazards.md R209). -/
  | concurrentCommand
  /-- Somebody else drives the pin or the channel, or changes the clock under a Driver (R208, R210). -/
  | foreignAccess
  /-- `RELEASE` while no Driver is idle (70_reset_and_hazards.md R202). -/
  | releaseWithoutDriver
  /-- A read of a register or buffer slot that holds `none` (10_state.md R23). -/
  | unwrittenRead
  deriving DecidableEq, Repr

/-- The Boolean draws of one command (00_scope.md R10): whether the hardware layer accepts a configuration, a clock
readback, a transmission. -/
structure Draws where
  cfgOk : Bool
  clkOk : Bool
  txOk  : Bool
  deriving DecidableEq, Repr

/-- The draws of a line that writes none: all true (30_encoding.md R97). -/
def Draws.allTrue : Draws := { cfgOk := true, clkOk := true, txOk := true }

/-- What the world outside can do to the block (60_exceptions.md R183, 93_implementation_defined.md U1, U4, U15). -/
inductive HostEvent where
  /-- The host offers a command word, which runs under these draws (30_encoding.md R87, R97). -/
  | command (w : Word) (d : Draws)
  /-- The host offers a command word while another command is still running (70_reset_and_hazards.md R209). -/
  | overlapped (w : Word)
  /-- The Driver is destroyed (70_reset_and_hazards.md R202). -/
  | release
  /-- From now on the clock subsystem reports this tick frequency (00_scope.md R5; 70_reset_and_hazards.md R210). -/
  | tickRate (hz : Nat)
  /-- Somebody else drives a pin (70_reset_and_hazards.md R208). -/
  | foreignPin (p : PinToken)
  /-- Somebody else uses a pulse-generation channel (70_reset_and_hazards.md R208). -/
  | foreignChannel (c : ChannelToken)
  deriving DecidableEq, Repr

/-- The calibration registers' names (10_state.md R20). -/
inductive CalReg where
  | t0h
  | t0l
  | t1h
  | t1l
  deriving DecidableEq, Repr

end Sys2Proof.Machine
end

