-- ==== Sys2Proof/Syntax.lean ====
section
/-! DEFINITION. The command set (30_encoding.md R94): one constructor for each row of spec/opcode_table.json. -/

namespace Sys2Proof

/-- The normative command type `NEW | SET_PIXEL(r, g, b)` of 30_encoding.md R87. -/
inductive Instr where
  /-- `NEW`: construct, calibrate, reset (40_construct.md R117). -/
  | new
  /-- `SET_PIXEL r, g, b`: encode and transmit one colour (41_set_pixel.md R146); the host's order red, green, blue. -/
  | setPixel (r g b : Byte)
  deriving DecidableEq, Repr

end Sys2Proof
end

