-- ==== Sys2Proof/WellFormed.lean ====
section
/-! DEFINITION. Well-formedness of commands, command words and signal data. Every colour is legal (30_encoding.md R95),
so a typed command is always well formed; what can be ill formed is a word, a pulse, a train. -/

namespace Sys2Proof

/-- Every typed command is well formed: "all 2^24 combinations are legal" (30_encoding.md R95). -/
def Instr.wf : Instr → Bool
  | .new => true
  | .setPixel _ _ _ => true

/-- A word that is not reserved (30_encoding.md R96): `op` 0x02, or `op` 0x01 with `arg` zero. Written on the fields of
R87, apart from the decoder, which is written on the mask and match of R94. -/
def WellFormed.word (w : Word) : Bool :=
  w.extractLsb' 24 8 == 0x02#8 || (w.extractLsb' 24 8 == 0x01#8 && w.extractLsb' 0 24 == 0#24)

end Sys2Proof

namespace Sys2Proof.Machine

/-- A pulse that the generator can hold and that lasts: 1 to `MAX_TICKS` ticks (30_encoding.md R83). -/
def Pulse.fits (maxTicks : Option Nat) (p : Pulse) : Bool :=
  decide (1 ≤ p.ticks) && (match maxTicks with | none => true | some m => decide (p.ticks ≤ m))

/-- A train `Transmit` may be given: every pulse lasts at least one tick (20_memory.md R55). -/
def Train.sendable (tr : Train) : Bool := tr.all fun p => decide (1 ≤ p.ticks)

/-- Levels strictly alternate along the train, the first one being `l`. -/
def Train.alternatesFrom : Level → Train → Bool
  | _, [] => true
  | .high, p :: ps => p.level == .high && Train.alternatesFrom .low ps
  | .low, p :: ps => p.level == .low && Train.alternatesFrom .high ps

/-- The shape of a pixel train (30_encoding.md R85): 48 pulses, the first High, levels strictly alternating (so the
last Low). -/
def Train.pixelShaped (tr : Train) : Bool := tr.length == 48 && Train.alternatesFrom .high tr

end Sys2Proof.Machine
end

