-- ==== Sys2Proof/Decode.lean ====
section
/-! DEFINITION. The command map (30_encoding.md R87, R94, R96), its encoder, and the response code (R88). -/

namespace Sys2Proof

/-- Why a word is no command (30_encoding.md R96). -/
inductive DecodeError where
  /-- `op` is 0x01 and the reserved `arg` is not zero. -/
  | reservedArg (arg : BitVec 24)
  /-- `op` is 0x00 or 0x03 to 0xFF. -/
  | reservedOp (op : BitVec 8)
  deriving DecidableEq, Repr

/-- Bits 31:24, the operation code (30_encoding.md R87). -/
def opField (w : Word) : BitVec 8 := w.extractLsb' 24 8

/-- Bits 23:0, the operand (30_encoding.md R87). -/
def argField (w : Word) : BitVec 24 := w.extractLsb' 0 24

/-- `arg[23:16]`, red (30_encoding.md R87, format C). -/
def redField (w : Word) : Byte := w.extractLsb' 16 8

/-- `arg[15:8]`, green. -/
def greenField (w : Word) : Byte := w.extractLsb' 8 8

/-- `arg[7:0]`, blue. -/
def blueField (w : Word) : Byte := w.extractLsb' 0 8

/-- The mask and match of the row `NEW` (30_encoding.md R94). -/
def newMask : Word := 0xFFFFFFFF#32
def newMatch : Word := 0x01000000#32

/-- The mask and match of the row `SET_PIXEL` (30_encoding.md R94). -/
def setPixelMask : Word := 0xFF000000#32
def setPixelMatch : Word := 0x02000000#32

/-- "A word `W` selects a row when `W & mask = match`" (30_encoding.md R94). -/
def selectsRow (mask mtch w : Word) : Bool := w &&& mask == mtch

/-- The decoder: total on words, a reserved word rejected by name (30_encoding.md R94, R96). -/
def decode (w : Word) : Except DecodeError Instr :=
  if selectsRow newMask newMatch w then .ok .new
  else if selectsRow setPixelMask setPixelMatch w then .ok (.setPixel (redField w) (greenField w) (blueField w))
  else if opField w = 0x01#8 then .error (.reservedArg (argField w))
  else .error (.reservedOp (opField w))

/-- The word of a command: `op` above `arg`, and in format C red above green above blue (30_encoding.md R87, R94). -/
def encode : Instr → Word
  | .new => 0x01#8 ++ 0#24
  | .setPixel r g b => 0x02#8 ++ r ++ g ++ b

/-- The command word of the host's numbering: a word of `nbits` bits, every bit above them zero. -/
def tableWord (nbits w : Nat) : Word := BitVec.ofNat 32 (w % 2 ^ nbits)

/-- What the decoder reads from the word `w`; there is one command length, 32 bits (30_encoding.md R96). Log 29. -/
def decodeTableWord (nbits w : Nat) : Option Instr :=
  if nbits ≤ 32 then (decode (tableWord nbits w)).toOption else none

/-- The 2-bit response code (30_encoding.md R88). -/
def responseCode : Machine.Result → BitVec 2
  | .ok => 0#2
  | .err .hardwareConfigError => 1#2
  | .err .transmitError => 2#2

/-- The response a code stands for; code 3 is never produced and stands for none (30_encoding.md R88). -/
def responseOfCode (c : BitVec 2) : Option Machine.Result :=
  if c = 0#2 then some .ok
  else if c = 1#2 then some (.err .hardwareConfigError)
  else if c = 2#2 then some (.err .transmitError)
  else none

/-- The code of a level where a bit is needed: High 1, Low 0 (30_encoding.md R82). -/
def levelBit : Machine.Level → BitVec 1
  | .high => 1#1
  | .low => 0#1

end Sys2Proof
end

