-- ==== Sys2Proof/Machine/Constants.lean ====
section
/-! DEFINITION. The constants the source fixes (00_scope.md R4). -/

namespace Sys2Proof.Machine

/-- `NBITS`: bits per colour, pulse pairs per pixel train. -/
def nBits : Nat := 24

/-- `CHAN_BITS`: bits per colour channel. -/
def chanBits : Nat := 8

/-- `CLK_DIV`: the clock divisor programmed at construction. -/
def clkDiv : Nat := 2

/-- `T0H_NS`: high phase of a 0 bit, nanoseconds. -/
def t0hNs : Nat := 350

/-- `T0L_NS`: low phase of a 0 bit. -/
def t0lNs : Nat := 800

/-- `T1H_NS`: high phase of a 1 bit. -/
def t1hNs : Nat := 700

/-- `T1L_NS`: low phase of a 1 bit. -/
def t1lNs : Nat := 600

/-- `RESET_TICKS`: length of the reset transmission, in ticks. -/
def resetTicks : Nat := 24

/-- `TOL_NS`: the protocol's tolerance per phase; no rule enforces it (70_reset_and_hazards.md R217). -/
def tolNs : Nat := 150

/-- `NS_PER_S`: nanoseconds per second. -/
def nsPerS : Nat := 1000000000

end Sys2Proof.Machine
end

