-- ==== Sys2Proof/Machine/Operands.lean ====
section
/-! DEFINITION. Operand assembly (30_encoding.md R89 to R93), the four nanosecond targets, and the views of a train
(20_memory.md R61, R62; 70_reset_and_hazards.md R214). -/

namespace Sys2Proof.Machine

/-- `Ticks(ns, f)`: nanoseconds to ticks, nearest, ties up, on exact naturals (30_encoding.md R89; log 11). -/
def ticks (ns f : Nat) : Nat := (ns * f + nsPerS / 2) / nsPerS

/-- `MkPulse(level, ns, f)` (30_encoding.md R92). -/
def mkPulse (l : Level) (ns f : Nat) : Pulse := { level := l, ticks := ticks ns f }

/-- The nanosecond target of each calibration register (10_state.md R21). -/
def CalReg.targetNs : CalReg → Nat
  | .t0h => t0hNs
  | .t0l => t0lNs
  | .t1h => t1hNs
  | .t1l => t1lNs

/-- The level of each calibration register, fixed by its role (10_state.md R21). -/
def CalReg.level : CalReg → Level
  | .t0h => .high
  | .t0l => .low
  | .t1h => .high
  | .t1l => .low

/-- The four registers in the order of the source's list. -/
def CalReg.all : List CalReg := [.t0h, .t0l, .t1h, .t1l]

/-- The pulse calibration derives for a register at tick frequency `f` (10_state.md R21, 40_construct.md R114). -/
def CalReg.calibrated (r : CalReg) (f : Nat) : Pulse := mkPulse r.level r.targetNs f

/-- The four durations at tick frequency `f` (00_scope.md R6). -/
def durations (f : Nat) : List Nat := CalReg.all.map fun r => (r.calibrated f).ticks

/-- A duration above `MAX_TICKS`; never, if that is infinity (40_construct.md R115(a)). -/
def exceeds (maxTicks : Option Nat) (n : Nat) : Bool :=
  match maxTicks with
  | none => false
  | some m => decide (m < n)

/-- Some duration at `f` does not fit the pulse format (40_construct.md R115(a)). -/
def calibrationOverflows (maxTicks : Option Nat) (f : Nat) : Bool := (durations f).any (exceeds maxTicks)

/-- Some duration at `f` is zero ticks (40_construct.md R115(b)). -/
def calibrationZero (f : Nat) : Bool := (durations f).any (· == 0)

/-- `ns * f / 10^9` ticks has a fractional part of exactly one half (30_encoding.md R90(a)). -/
def isTie (ns f : Nat) : Bool := ns * f % nsPerS == nsPerS / 2

/-- `NoTie(f)`: no one of the four targets ties at `f` (30_encoding.md R90(a)). -/
def noTie (f : Nat) : Bool := CalReg.all.all fun r => !isTie r.targetNs f

/-- `InTol(f)`: every phase is realised within `TOL_NS` of its target (30_encoding.md R91(e)); a predicate that no
rule enforces (70_reset_and_hazards.md R217). -/
def inTol (f : Nat) : Bool :=
  CalReg.all.all fun r =>
    decide ((((ticks r.targetNs f * nsPerS : Nat) : Int) - ((r.targetNs * f : Nat) : Int)).natAbs ≤ tolNs * f)

/-- `Distinct(f)`: the two pairs differ (20_memory.md R62). -/
def distinct (f : Nat) : Bool :=
  ticks t0hNs f != ticks t1hNs f || ticks t0lNs f != ticks t1lNs f

/-- `Pack(r, g, b) = (g << 16) | (r << 8) | b` (30_encoding.md R93, 20_memory.md R52). -/
def pack (r g b : Byte) : BitVec 24 :=
  (g.setWidth 24 <<< 16) ||| (r.setWidth 24 <<< 8) ||| b.setWidth 24

/-- The idle level of the wire: Low (30_encoding.md R82; log 19). -/
def idleLevel : Level := .low

/-- The reset train: one pulse of 24 ticks at the idle level (30_encoding.md R86; log 18). -/
def resetTrain : Train := [{ level := idleLevel, ticks := resetTicks }]

/-- The two pulses of a pair in transmission order (30_encoding.md R84). -/
def Pair.pulses (p : Pair) : Train := [p.high, p.low]

/-- The 48-pulse train that spells `v` with the pairs `p0` and `p1`, bit 23 first (20_memory.md R50, R56). -/
def pixelTrain (p0 p1 : Pair) (v : BitVec 24) : Train :=
  (List.range nBits).flatMap fun k => (if v.getLsbD (nBits - 1 - k) then p1 else p0).pulses

/-- `Expand(tr)`: the wire's level at every tick of the train (20_memory.md R61). -/
def expand (tr : Train) : List Level := tr.flatMap fun p => List.replicate p.ticks p.level

/-- The selections of a pixel train as `SET_PIXEL` makes them: `sel_k` is the packed bit `23 - k` (20_memory.md R62). -/
def selections (v : BitVec 24) : List Bool := (List.range nBits).map fun k => v.getLsbD (nBits - 1 - k)

/-- `Decode`: the sum of `sel_k << (23 - k)` (20_memory.md R62). -/
def decodeSelections (sel : List Bool) : Nat :=
  (sel.zipIdx.map fun x => x.1.toNat <<< (nBits - 1 - x.2)).sum

/-- Length of a train in ticks (41_set_pixel.md R148(e)). -/
def trainTicks (tr : Train) : Nat := (tr.map Pulse.ticks).sum

/-- The number of 1 bits of a packed value (41_set_pixel.md R148(e)). -/
def countOnes (v : BitVec 24) : Nat := ((List.range nBits).filter fun i => v.getLsbD i).length

/-- Real duration of `n` ticks at tick frequency `f`, in nanoseconds (70_reset_and_hazards.md R214). No rule depends
on it: the machine has no time (R216). R214 gives no duration at frequency 0, where no Driver exists; the quotient is 0
there, a DESIGN CHOICE (log 24). -/
def durationNs (n f : Nat) : Rat := (n * nsPerS : Nat) / (f : Nat)

end Sys2Proof.Machine
end

