-- ==== Sys2Proof/Machine/State.lean ====
section
/-! DEFINITION. The block's whole state (10_state.md, head: "and nothing else"), the parameters and draws a step reads
(00_scope.md R5, R10), and the host's side of the command port. The reset state of 10_state.md R34. -/

namespace Sys2Proof.Machine

/-- Everything a step reads or writes. The first group is the spec's record; the second the spec's parameters and
draws; the third the model's own record of what went in and came out. -/
structure State where
  /-- `PHASE` (R24, R29). -/
  phase    : Phase
  /-- `DIV`, the clock divisor; `none` is the spec's "unspecified" (R27). -/
  div      : Option Nat
  /-- `F`, the tick-frequency latch (R28). -/
  f        : Option Nat
  /-- `T0H`, the high pulse of a 0 bit (R20, R21). -/
  t0h      : Option Pulse
  /-- `T0L`, the low pulse of a 0 bit. -/
  t0l      : Option Pulse
  /-- `T1H`, the high pulse of a 1 bit. -/
  t1h      : Option Pulse
  /-- `T1L`, the low pulse of a 1 bit. -/
  t1l      : Option Pulse
  /-- `train[0..23]`, the train buffer (R30). -/
  train    : TrainBuffer
  /-- Whether the block holds the handles to the pin and the channel (R33). -/
  owns     : Bool
  /-- The history of the wire, append-only, oldest first (R31). -/
  wire     : List WireEvent
  /-- The mark of a run that left the domain the spec defines; never cleared (60_exceptions.md R185). -/
  refused  : Bool
  /-- The instance's pin, channel and `MAX_TICKS` (00_scope.md R5); no step changes it. -/
  inst     : Instance
  /-- `TICKS_HZ`, what the clock subsystem would report now (00_scope.md R5). -/
  ticksHz  : Nat
  /-- The draws of the command being run (00_scope.md R10). -/
  draws    : Draws
  /-- The events the host is going to offer, oldest first: the outside world, no queue of the block's (log 1). -/
  inputs   : List HostEvent
  /-- The responses given so far, oldest first (30_encoding.md R88; log 8). -/
  results  : List Result
  /-- The reasons of the refusals so far, oldest first (60_exceptions.md R185; log 7). -/
  refusals : List RefuseReason
  deriving DecidableEq, Repr

/-- Why a step can stop the machine: never. The two errors of the block are responses the machine goes on after
(60_exceptions.md R178) and a transmission that never ends is not modelled (92_eei_decisions.md D22; log 13, log 30).
No constructor, so nobody raises one. -/
inductive Fault where
  deriving DecidableEq, Repr

/-- Why exec has no meaning for a command. The spec's own refusals are next states that set `refused` (R185; log 7). -/
inductive Refusal where
  /-- An arm of exec that has no meaning yet. Raised by no arm of this model; safe. -/
  | notModelled (mnemonic : String)
  deriving DecidableEq, Repr

/-- The state before the first `NEW` (10_state.md R34, 70_reset_and_hazards.md R200). The parameters and draws are
no state of the block; their values here are the model's choice (log 2, 3, 4, 5) and no statement rests on them. -/
def State.reset : State where
  phase := .unbound
  div := none
  f := none
  t0h := none
  t0l := none
  t1h := none
  t1l := none
  train := Vector.replicate 24 none
  owns := false
  wire := []
  refused := false
  inst := { pin := { id := 0 }, channel := { id := 0 }, maxTicks := none }
  ticksHz := 40000000
  draws := Draws.allTrue
  inputs := []
  results := []
  refusals := []

end Sys2Proof.Machine
end

