-- ==== Sys2Proof/Machine/Flags.lean ====
section
/-! DEFINITION. The block has no flag and no condition code (10_state.md R26). What an environment may want to see of
it is derived from the state: busy, command-ready, the level of the wire between events. -/

namespace Sys2Proof.Machine

/-- A `busy` output: `PHASE = TRANSMITTING`, never true between steps (10_state.md R26). -/
def State.busy (s : State) : Bool := s.phase == .transmitting

/-- `cmd_ready` is low while `PHASE = TRANSMITTING` (92_eei_decisions.md D17). -/
def State.cmdReady (s : State) : Bool := !s.busy

/-- The level of the wire between events and at reset: the idle level (10_state.md R31, R34; log 19). -/
def State.wireLevel (_ : State) : Level := idleLevel

/-- The last response, if any (30_encoding.md R88). -/
def State.lastResult (s : State) : Option Result := s.results.getLast?

end Sys2Proof.Machine
end

