-- ==== Sys2Proof/Machine/Ops.lean ====
section
/-! DEFINITION. The primitives of 00_scope.md R9 over the state, and the three ways a command ends (R11): `return Ok`,
`raise`, `refuse`. -/

namespace Sys2Proof.Machine

/-- What exec and step answer. -/
abbrev Answer := Host.Outcome State Fault Refusal

/-- `x[T]` (00_scope.md R9). -/
def State.readCal (r : CalReg) (s : State) : Option Pulse :=
  match r with
  | .t0h => s.t0h
  | .t0l => s.t0l
  | .t1h => s.t1h
  | .t1l => s.t1l

/-- `x[T] <- v` (00_scope.md R9). -/
def State.writeCal (r : CalReg) (v : Pulse) (s : State) : State :=
  match r with
  | .t0h => { s with t0h := some v }
  | .t0l => { s with t0l := some v }
  | .t1h => { s with t1h := some v }
  | .t1l => { s with t1l := some v }

/-- `c[PHASE] <- v` (00_scope.md R9). -/
def State.setPhase (v : Phase) (s : State) : State := { s with phase := v }

/-- `c[DIV] <- v` (00_scope.md R9). -/
def State.setDiv (v : Nat) (s : State) : State := { s with div := some v }

/-- `c[F] <- v` (00_scope.md R9). -/
def State.setF (v : Nat) (s : State) : State := { s with f := some v }

/-- The handles are moved into the block (40_construct.md R112). -/
def State.takeHandles (s : State) : State := { s with owns := true }

/-- The empty buffer: every slot `none` (10_state.md R30). -/
def emptyBuffer : TrainBuffer := Vector.replicate 24 none

/-- `MemRead(a, 1)`: the pair in slot `a`; no slot exists outside 0 to 23 (20_memory.md R53). -/
def memRead (buf : TrainBuffer) (a : Nat) : Option Pair :=
  match buf[a]? with
  | some slot => slot
  | none => none

/-- `MemWrite(a, 1, p)`: slot `a` of the buffer holds `p`; no slot index outside 0 to 23 can arise (20_memory.md R53),
and such a write is none. -/
def memWrite (buf : TrainBuffer) (a : Nat) (p : Pair) : TrainBuffer := buf.setIfInBounds a (some p)

/-- The buffer is replaced: filled by `SET_PIXEL`, emptied at its end (41_set_pixel.md R146, R147). -/
def State.setTrain (buf : TrainBuffer) (s : State) : State := { s with train := buf }

/-- `Configure(d)`: whether the hardware layer accepts the divisor, by the draw `cfg_ok` (00_scope.md R9). -/
def State.configure (_d : Nat) (s : State) : Bool := s.draws.cfgOk

/-- `ReadClock()`: the tick frequency the clock subsystem reports, by the draw `clk_ok` (00_scope.md R9). -/
def State.readClock (s : State) : Option Nat := if s.draws.clkOk then some s.ticksHz else none

/-- One event is appended to the wire history (10_state.md R31). -/
def State.emit (e : WireEvent) (s : State) : State := { s with wire := s.wire ++ [e] }

/-- `Transmit(tr)` (20_memory.md R55): the state after it, and whether the hardware layer answered `ok`. DESIGN CHOICE
(log 33): it checks no pulse of `tr`. R55 admits only pulses of at least one tick and 40_construct.md R115 keeps every
other train from it; were one given, which no run does, it would be sent like any other. -/
def State.transmit (tr : Train) (s : State) : State × Bool :=
  if s.draws.txOk then (s.emit (.sent tr), true) else (s.emit .unspecified, false)

/-- Step 3 of `NEW`: the four calibration registers are written (40_construct.md R114). -/
def State.calibrate (f : Nat) (s : State) : State :=
  (((s.writeCal .t0h (CalReg.t0h.calibrated f)).writeCal .t0l (CalReg.t0l.calibrated f)).writeCal .t1h
    (CalReg.t1h.calibrated f)).writeCal .t1l (CalReg.t1l.calibrated f)

/-- The reset state of 10_state.md R34, with `wire` and `refused` kept: no Driver, nothing held
(40_construct.md R118, 60_exceptions.md R176, 70_reset_and_hazards.md R202). -/
def State.unbind (s : State) : State :=
  { s with phase := .unbound, div := none, f := none, t0h := none, t0l := none, t1h := none, t1l := none,
           train := emptyBuffer, owns := false }

/-- The one response of an accepted command (30_encoding.md R88). -/
def State.respond (r : Result) (s : State) : State := { s with results := s.results ++ [r] }

/-- The mark of a refusal and its reason; nothing else changes (60_exceptions.md R185; log 7). -/
def State.markRefused (why : RefuseReason) (s : State) : State :=
  { s with refused := true, refusals := s.refusals ++ [why] }

/-- `return Ok` (00_scope.md R9). -/
def returnOk (s : State) : Answer := .next (s.respond .ok)

/-- `raise E` (00_scope.md R9), the block's only exception: the command ends now with `Err(E)` and leaves the state
`left`. Control goes to no handler and nothing is saved (60_exceptions.md R176); there is no return from it beyond the
caller's next command (R178). -/
def raise (e : HwError) (left : State) : Answer := .next (left.respond (.err e))

/-- `refuse(reason)` (00_scope.md R9): the command is refused as a whole, from the state `start` it began in
(60_exceptions.md R185). -/
def refuse (why : RefuseReason) (start : State) : Answer := .next (start.markRefused why)

/-- `Select(b)`: the pair for a bit value, read from the calibration registers (41_set_pixel.md R144); `none` if a
register it reads holds `none` (10_state.md R23). -/
def State.select (b : Bool) (s : State) : Option Pair :=
  match b with
  | true =>
    match s.readCal .t1h, s.readCal .t1l with
    | some h, some l => some { high := h, low := l }
    | _, _ => none
  | false =>
    match s.readCal .t0h, s.readCal .t0l with
    | some h, some l => some { high := h, low := l }
    | _, _ => none

/-- `for i = n - 1 downto 0: MemWrite(23 - i, 1, Select(v[i]))` (41_set_pixel.md R143). -/
def scanFill (s : State) (v : BitVec 24) : Nat → TrainBuffer → Option TrainBuffer
  | 0, buf => some buf
  | i + 1, buf =>
    match s.select (v.getLsbD i) with
    | some p => scanFill s v i (memWrite buf (nBits - 1 - i) p)
    | none => none

/-- The pulses of these slots in order, high then low of each (20_memory.md R56); `none` if a slot is empty. -/
def readSlots (buf : TrainBuffer) : List Nat → Option Train
  | [] => some []
  | k :: ks =>
    match memRead buf k, readSlots buf ks with
    | some p, some tr => some (p.pulses ++ tr)
    | _, _ => none

/-- The train as transmitted: slots 0 to 23, slot 0 first (20_memory.md R56). -/
def assembleTrain (buf : TrainBuffer) : Option Train := readSlots buf (List.range nBits)

end Sys2Proof.Machine
end

