-- ==== Sys2Proof/Machine/Construct.lean ====
section
/-! DEFINITION. The meaning of `NEW` (40_construct.md R117, R118). -/

namespace Sys2Proof.Machine

/-- `NEW` raises an error: no Driver is produced, the state goes back to reset but for the wire and the mark
(40_construct.md R118). -/
def abortNew (e : HwError) (s : State) : Answer := raise e s.unbind

/-- Step 4 of `NEW`, the reset transmission, and the end (40_construct.md R116, R117). -/
def newTransmitReset (s : State) : Answer :=
  match s.transmit resetTrain with
  | (s', true) => returnOk (s'.setPhase .idle)
  | (s', false) => abortNew .transmitError s'

/-- Step 3 of `NEW`, calibration and its validity (40_construct.md R114, R115). `start` is the state the command began
in: a refusal discards the writes made so far (60_exceptions.md R185). -/
def newCalibrate (start : State) (f : Nat) (s : State) : Answer :=
  if calibrationOverflows s.inst.maxTicks f then abortNew .hardwareConfigError (s.calibrate f)
  else if calibrationZero f then refuse .zeroTickPulse start
  else newTransmitReset (s.calibrate f)

/-- Step 2 of `NEW`, the frequency readback (40_construct.md R113). -/
def newReadClock (start : State) (s : State) : Answer :=
  match s.readClock with
  | none => abortNew .hardwareConfigError s
  | some f => newCalibrate start f (s.setF f)

/-- Step 1 of `NEW`, the divisor (40_construct.md R112). -/
def newConfigure (start : State) (s : State) : Answer :=
  if s.configure clkDiv then newReadClock start (s.setDiv clkDiv)
  else abortNew .hardwareConfigError s

/-- `NEW`, the whole command (40_construct.md R117). -/
def execNew (s : State) : Answer :=
  match s.phase with
  | .unbound => newConfigure s s.takeHandles
  | .idle => refuse .newWhileBound s
  | .transmitting => refuse .newWhileBound s

end Sys2Proof.Machine
end

