-- ==== Sys2Proof/Machine/SetPixel.lean ====
section
/-! DEFINITION. The meaning of `SET_PIXEL r, g, b` (41_set_pixel.md R146, R147). -/

namespace Sys2Proof.Machine

/-- Completion of `SET_PIXEL`, either way: the buffer is emptied and the Driver is idle again (41_set_pixel.md R147). -/
def State.finishPixel (s : State) : State := (s.setTrain emptyBuffer).setPhase .idle

/-- Step 3 of `SET_PIXEL`: transmit, then complete (41_set_pixel.md R145, R147). -/
def pixelTransmit (tr : Train) (s : State) : Answer :=
  match (s.setPhase .transmitting).transmit tr with
  | (s', true) => returnOk s'.finishPixel
  | (s', false) => raise .transmitError s'.finishPixel

/-- Steps 2 and 3 of `SET_PIXEL` on the packed value `v` (41_set_pixel.md R143 to R145); a read of `none` refuses the
command (10_state.md R23; log 10). -/
def pixelFill (v : BitVec 24) (s : State) : Answer :=
  match scanFill s v nBits s.train with
  | none => refuse .unwrittenRead s
  | some buf =>
    match assembleTrain buf with
    | none => refuse .unwrittenRead s
    | some tr => pixelTransmit tr (s.setTrain buf)

/-- `SET_PIXEL r, g, b`, the whole command (41_set_pixel.md R146). -/
def execSetPixel (r g b : Byte) (s : State) : Answer :=
  match s.phase with
  | .idle => pixelFill (pack r g b) s
  | .unbound => refuse .setPixelWithoutDriver s
  | .transmitting => refuse .setPixelWithoutDriver s

end Sys2Proof.Machine
end

