-- ==== Sys2Proof/Machine/Port.lean ====
section
/-! DEFINITION. What each host event does to the block: the command port (30_encoding.md R87, R96; 92 D17), the
destruction of the Driver (70_reset_and_hazards.md R202), and the hazards of R208 to R210. -/

namespace Sys2Proof.Machine

/-- The draws of the command about to run are set up (00_scope.md R10). -/
def State.setDraws (d : Draws) (s : State) : State := { s with draws := d }

/-- The clock subsystem reports another tick frequency from now on (00_scope.md R5). -/
def State.setTicksHz (hz : Nat) (s : State) : State := { s with ticksHz := hz }

/-- A command word at the port: refused while a transmission runs (70_reset_and_hazards.md R209), refused if it is
reserved (30_encoding.md R96), else run. DESIGN CHOICE (log 32): a reserved word offered while another command runs is
refused with the reason of R209, since no rule orders the two reasons. -/
def offerCommand (w : Word) (s : State) : Answer :=
  if s.busy then refuse .concurrentCommand s
  else
    match decode w with
    | .ok i => exec i s
    | .error _ => refuse .reservedCommand s

/-- `RELEASE` (70_reset_and_hazards.md R202): the Driver is destroyed, nothing is transmitted, nothing is returned. -/
def execRelease (s : State) : Answer :=
  match s.phase with
  | .idle => .next s.unbind
  | .unbound => refuse .releaseWithoutDriver s
  | .transmitting => refuse .releaseWithoutDriver s

/-- The tick frequency changes: free before construction, a foreign access while a Driver lives
(70_reset_and_hazards.md R210; log 16). -/
def clockChange (hz : Nat) (s : State) : Answer :=
  match s.phase with
  | .unbound => .next (s.setTicksHz hz)
  | .idle => if hz = s.ticksHz then .next s else refuse .foreignAccess s
  | .transmitting => if hz = s.ticksHz then .next s else refuse .foreignAccess s

/-- Somebody drives a pin: refused if it is this block's (20_memory.md R57; log 15). -/
def pinDriven (p : PinToken) (s : State) : Answer :=
  if p = s.inst.pin then refuse .foreignAccess s else .next s

/-- Somebody uses a channel: refused if it is this block's (20_memory.md R57; log 15). -/
def channelUsed (c : ChannelToken) (s : State) : Answer :=
  if c = s.inst.channel then refuse .foreignAccess s else .next s

/-- One host event. A word that overlaps a command is not decoded: reserved or not, its refusal has the reason of R209
(DESIGN CHOICE, log 32). -/
def handleEvent (e : HostEvent) (s : State) : Answer :=
  match e with
  | .command w d => offerCommand w (s.setDraws d)
  | .overlapped _ => refuse .concurrentCommand s
  | .release => execRelease s
  | .tickRate hz => clockChange hz s
  | .foreignPin p => pinDriven p s
  | .foreignChannel c => channelUsed c s

/-- The event is taken out of the host's list. -/
def State.setInputs (es : List HostEvent) (s : State) : State := { s with inputs := es }

/-- The next host event, if there is one, and the state without it; with none the block waits and nothing changes
(10_state.md R24: "commands arrive from the host one at a time"). -/
def takeEvent (s : State) : Answer :=
  match s.inputs with
  | [] => .next s
  | e :: rest => handleEvent e (s.setInputs rest)

end Sys2Proof.Machine
end

