-- ==== Sys2Proof/Machine/Step.lean ====
section
/-! DEFINITION. One step: the next host event runs to completion (10_state.md R24). -/

namespace Sys2Proof.Machine

/-- One step of the block: the next event of the host, as one atomic step (10_state.md R24, 20_memory.md R58). -/
def step (s : State) : Host.Outcome State Fault Refusal := takeEvent s

/-- The state whose next event offers this command word, under the draws the state holds (log 1). -/
def State.withFetchWord (s : State) (nbits w : Nat) : State :=
  s.setInputs (.command (tableWord nbits w) s.draws :: s.inputs)

end Sys2Proof.Machine
end

