-- ==== Sys2Proof/Safety.lean ====
section
/-! DEFINITION. What a claim assumes of a run and what every step keeps: a run inside the domain the spec defines, and
the invariant of the states between steps. -/

namespace Sys2Proof.Machine

/-- The run so far stayed in the domain the spec defines; a claim about a run takes it as a premise
(60_exceptions.md R185). -/
def State.inDomain (s : State) : Prop := s.refused = false

/-- What the four calibration registers hold after a `NEW` at frequency `f` (10_state.md R21). -/
def State.calibratedAt (f : Nat) (s : State) : Prop :=
  s.t0h = some (mkPulse .high 350 f) ∧ s.t0l = some (mkPulse .low 800 f) ∧
  s.t1h = some (mkPulse .high 700 f) ∧ s.t1l = some (mkPulse .low 600 f)

/-- An event that a block with this `MAX_TICKS` can have put on its wire: the reset train, or a pixel train whose pulses
fit; or the mark of a failed transmission (10_state.md R31, 30_encoding.md R83, R85, R86). -/
def WireEvent.legal (maxTicks : Option Nat) : WireEvent → Prop
  | .unspecified => True
  | .sent tr => tr = resetTrain ∨ (Train.pixelShaped tr = true ∧ tr.all (Pulse.fits maxTicks) = true)

/-- The state between steps while no Driver exists (10_state.md R34). -/
structure State.UnboundInv (s : State) : Prop where
  div  : s.div = none
  f    : s.f = none
  t0h  : s.t0h = none
  t0l  : s.t0l = none
  t1h  : s.t1h = none
  t1l  : s.t1l = none
  owns : s.owns = false

/-- The state between steps while a Driver exists (40_construct.md R117, 10_state.md R21): calibrated at the frequency
the clock subsystem still reports, every duration at least one tick and none above `MAX_TICKS`. -/
structure State.IdleInv (s : State) : Prop where
  div        : s.div = some 2
  f          : s.f = some s.ticksHz
  calibrated : s.calibratedAt s.ticksHz
  fits       : calibrationOverflows s.inst.maxTicks s.ticksHz = false
  nonzero    : calibrationZero s.ticksHz = false
  owns       : s.owns = true

/-- Every field that 10_state.md R34 gives a reset value and that a failed `NEW` and `RELEASE` reset too. -/
structure State.ResetValues (s : State) : Prop where
  phase : s.phase = .unbound
  div   : s.div = none
  f     : s.f = none
  t0h   : s.t0h = none
  t0l   : s.t0l = none
  t1h   : s.t1h = none
  t1l   : s.t1l = none
  train : ∀ k, memRead s.train k = none
  owns  : s.owns = false

/-- The invariant of the states between steps. -/
structure State.Inv (s : State) : Prop where
  /-- `TRANSMITTING` never appears in a state between steps (10_state.md R24). -/
  quiet    : s.phase ≠ .transmitting
  /-- The buffer is empty between commands (10_state.md R30). -/
  buffer   : s.train = emptyBuffer
  unbound  : s.phase = .unbound → s.UnboundInv
  idle     : s.phase = .idle → s.IdleInv
  /-- The mark is set exactly when something was refused (60_exceptions.md R185). -/
  marked   : s.refused = true ↔ s.refusals ≠ []
  wire     : ∀ e ∈ s.wire, e.legal s.inst.maxTicks

end Sys2Proof.Machine
end

