-- ==== Sys2Proof/Certificates/Slice0/Obligations.lean ====
section
/-! DEFINITION. The statements about the block, from the spec's numbered rules. A statement about a run uses
`Host.Core.run` on `Sys2Proof.core`; the draws, the tick frequency and the parameters are fields of State, so a
statement for every state is one for every draw (00_scope.md R10). A statement that a command returns takes the premise
that the hardware layer answers every request: `Transmit` always answers in this model (DESIGN CHOICE, log 13). -/

open Sys2Proof
open Sys2Proof.Machine

/-! ## Encoding -/

/-- 30_encoding.md R87, R94: decoding and encoding are inverse to each other, in both directions, so each word has one
meaning and no bit of an operand is dropped. -/
def Obligations.DecodeIffEncode : Prop :=
  ∀ (i : Instr) (w : Word), decode w = .ok i ↔ w = encode i

/-- 30_encoding.md R95, R87 (the op value and the places of the fields are the spec's own choice, 92_eei_decisions.md
D3, D5, log 12): every one of the 2^24 words with `op = 0x02` is a `SET_PIXEL`, of the colour in its fields. -/
def Obligations.EveryColourWordIsLegal : Prop :=
  ∀ w : Word, w.extractLsb' 24 8 = 0x02#8 →
    decode w = .ok (.setPixel (w.extractLsb' 16 8) (w.extractLsb' 8 8) (w.extractLsb' 0 8))

/-- 95_test_vectors.md V-E and V-P: words written out from the command map, and what they are. -/
def Obligations.SampleWordsDecode : Prop :=
  decode 0x01000000#32 = .ok .new ∧ decode 0x01000001#32 = .error (.reservedArg 1#24) ∧
  decode 0x02123456#32 = .ok (.setPixel 0x12#8 0x34#8 0x56#8) ∧ decode 0x02320000#32 = .ok (.setPixel 50#8 0#8 0#8) ∧
  decode 0x00000000#32 = .error (.reservedOp 0x00#8) ∧ decode 0x82320000#32 = .error (.reservedOp 0x82#8) ∧
  decodeTableWord 32 0x02AA55FF = some (.setPixel 170#8 85#8 255#8)

/-- 30_encoding.md R96 (the spec's own choice, 92_eei_decisions.md D19): the reserved words are exactly `op` 0x00,
0x03 to 0xFF, and 0x01 with a non-zero `arg`; the block refuses one: the mark is set and no other state of the block
changes, nothing on the wire, no result. -/
def Obligations.ReservedWordRefused : Prop :=
  ∀ w : Word,
    ((∃ x, decode w = .error x) ↔
      (w.extractLsb' 24 8 = 0x00#8 ∨ 3 ≤ (w.extractLsb' 24 8).toNat ∨
        (w.extractLsb' 24 8 = 0x01#8 ∧ w.extractLsb' 0 24 ≠ 0#24))) ∧
    ∀ (s : State) (d : Draws) (rest : List HostEvent), (∃ x, decode w = .error x) →
      s.inputs = .command w d :: rest → s.phase ≠ .transmitting →
      step s = .next { s with inputs := rest, draws := d, refused := true,
                              refusals := s.refusals ++ [.reservedCommand] }

/-- 30_encoding.md R88 (the codes are the spec's own choice, 92_eei_decisions.md D4): the response codes, code 3 never
produced; `NEW` can return all three results, `SET_PIXEL` only `Ok` and `TransmitError`; a command that is not refused
gives exactly one response. -/
def Obligations.ResponseWord : Prop :=
  (responseCode .ok = 0#2 ∧ responseCode (.err .hardwareConfigError) = 1#2 ∧
    responseCode (.err .transmitError) = 2#2 ∧ (∀ r, responseCode r ≠ 3#2) ∧
    (∀ r, responseOfCode (responseCode r) = some r) ∧ responseOfCode 3#2 = none) ∧
  (∀ r : Result, ∃ s t, exec .new s = .next t ∧ t.results = s.results ++ [r]) ∧
  (∀ R G B : Byte, ∀ r : Result, r ≠ .err .hardwareConfigError ↔
    ∃ s t, exec (.setPixel R G B) s = .next t ∧ t.results = s.results ++ [r]) ∧
  (∀ (i : Instr) (s t : State), exec i s = .next t →
    (t.refusals = s.refusals ∧ ∃ r, t.results = s.results ++ [r]) ∨
    (t.refusals ≠ s.refusals ∧ t.results = s.results))

/-- The model's command port (log 1). When the host's next event offers a word that decodes to `i`, and no
transmission runs, the step is `exec i` of the state with that event taken out and its draws set up; and the same of a
word placed by `withFetchWord`. -/
def Obligations.StepRunsDecodedCommand : Prop :=
  (∀ (s : State) (w : Word) (d : Draws) (rest : List HostEvent) (i : Instr),
    s.inputs = .command w d :: rest → s.phase ≠ .transmitting → decode w = .ok i →
    step s = exec i { s with inputs := rest, draws := d }) ∧
  (∀ (s : State) (nbits w : Nat) (i : Instr),
    s.phase ≠ .transmitting → decodeTableWord nbits w = some i → step (s.withFetchWord nbits w) = exec i s)

/-! ## Operands and signals -/

/-- 30_encoding.md R89, R90 (the tie rule is the spec's own choice, 92_eei_decisions.md D7, log 11): the formula;
where a tie happens, that the four targets' ties do occur, that `NoTie` makes the tie rule irrelevant; where a
duration is zero; no upper bound; frequency 0. -/
def Obligations.TicksRoundsToNearest : Prop :=
  (∀ ns f, ticks ns f = (ns * f + 500000000) / 1000000000) ∧
  (∀ ns f, (∃ k, 2 * (ns * f) = (2 * k + 1) * 1000000000) ↔ isTie ns f = true) ∧
  (∀ ns f k, 2 * (ns * f) = (2 * k + 1) * 1000000000 → ticks ns f = k + 1) ∧
  (isTie 350 10000000 = true ∧ ticks 350 10000000 = 4 ∧ isTie 700 5000000 = true ∧ ticks 700 5000000 = 4) ∧
  (∀ f, noTie f = true → ∀ ns ∈ [350, 800, 700, 600], ticks ns f = (ns * f + 499999999) / 1000000000) ∧
  (∀ ns f, ticks ns f = 0 ↔ ns * f < 500000000) ∧
  (∀ f, (ticks 350 f = 0 ↔ f ≤ 1428571) ∧ (ticks 800 f = 0 ↔ f ≤ 624999) ∧ (ticks 700 f = 0 ↔ f ≤ 714285) ∧
    (ticks 600 f = 0 ↔ f ≤ 833333)) ∧
  (∀ f, (∀ ns ∈ [350, 800, 700, 600], 1 ≤ ticks ns f) ↔ 1428572 ≤ f) ∧
  (∀ ns bound, 0 < ns → ∃ f, bound < ticks ns f) ∧
  (∀ ns, ticks ns 0 = 0)

/-- 30_encoding.md R91: non-decreasing in the frequency (not strictly) and in the duration; exact at multiples; the
rounding error at most half a tick; every frequency from 3 333 334 keeps the four phases within tolerance, below that
it may or may not hold. -/
def Obligations.TicksLaws : Prop :=
  (∀ ns f1 f2, f1 ≤ f2 → ticks ns f1 ≤ ticks ns f2) ∧
  (ticks 350 40000000 = 14 ∧ ticks 350 40000001 = 14) ∧
  (∀ ns1 ns2 f, ns1 ≤ ns2 → ticks ns1 f ≤ ticks ns2 f) ∧
  (∀ ns f, 1000000000 ∣ ns * f → ticks ns f * 1000000000 = ns * f) ∧
  (∀ f, 20000000 ∣ f → ∀ ns ∈ [350, 800, 700, 600], ticks ns f * 1000000000 = ns * f) ∧
  (∀ ns f, (((ticks ns f * 1000000000 : Nat) : Int) - ((ns * f : Nat) : Int)).natAbs ≤ 500000000) ∧
  (∀ f, inTol f = true ↔ ∀ ns ∈ [350, 800, 700, 600],
    (((ticks ns f * 1000000000 : Nat) : Int) - ((ns * f : Nat) : Int)).natAbs ≤ 150 * f) ∧
  (∀ f, 3333334 ≤ f → inTol f = true) ∧
  (inTol 3000000 = true ∧ inTol 2000000 = false)

/-- 30_encoding.md R93 (20_memory.md R52): the packed value, as OR of shifts and as a sum, bit by bit, and injective.
-/
def Obligations.PackIsGreenRedBlue : Prop :=
  (∀ r g b : Byte, (pack r g b).toNat = (g.toNat <<< 16) ||| (r.toNat <<< 8) ||| b.toNat) ∧
  (∀ r g b : Byte, (pack r g b).toNat = 65536 * g.toNat + 256 * r.toNat + b.toNat) ∧
  (∀ (r g b : Byte) (i : Nat), i < 24 → (pack r g b).getLsbD i =
    if 16 ≤ i then g.getLsbD (i - 16) else if 8 ≤ i then r.getLsbD (i - 8) else b.getLsbD i) ∧
  (∀ r g b r' g' b' : Byte, pack r g b = pack r' g' b' → r = r' ∧ g = g' ∧ b = b')

/-- 20_memory.md R56 (41_set_pixel.md R143): the scan of `SET_PIXEL` fills slot `k` with the pair of packed bit `23 -
k`: green in slots 0 to 7, red in 8 to 15, blue in 16 to 23, each top bit first; and the train as transmitted is the
slots' pulses in slot order, high then low, 48 of them. -/
def Obligations.SlotMap : Prop :=
  ∀ (s : State) (r g b : Byte) (before : TrainBuffer) (p0 p1 : Pair),
    s.select false = some p0 → s.select true = some p1 →
    ∃ buf, scanFill s (pack r g b) 24 before = some buf ∧
      (∀ k, k < 24 → memRead buf k = some (if (pack r g b).getLsbD (23 - k) then p1 else p0)) ∧
      (∀ k, k < 8 → memRead buf k = some (if g.getLsbD (7 - k) then p1 else p0) ∧
        memRead buf (8 + k) = some (if r.getLsbD (7 - k) then p1 else p0) ∧
        memRead buf (16 + k) = some (if b.getLsbD (7 - k) then p1 else p0)) ∧
      ∃ tr, assembleTrain buf = some tr ∧ tr.length = 48 ∧
        ∀ k p, k < 24 → memRead buf k = some p → tr[2 * k]? = some p.high ∧ tr[2 * k + 1]? = some p.low

/-- 30_encoding.md R85: a pixel train made of (High, Low) pairs has 48 pulses, begins with a High pulse, ends with a
Low pulse, and its levels alternate strictly. -/
def Obligations.PixelTrainAlternates : Prop :=
  ∀ (p0 p1 : Pair) (v : BitVec 24), p0.high.level = .high → p0.low.level = .low → p1.high.level = .high →
    p1.low.level = .low →
    (pixelTrain p0 p1 v).length = 48 ∧
    ∀ k, k < 48 → ((pixelTrain p0 p1 v)[k]?).map Pulse.level = some (if k % 2 = 0 then .high else .low)

/-- 20_memory.md R61: one level per tick; splitting a pulse changes nothing on the wire. -/
def Obligations.ExpandSplitsPulses : Prop :=
  (∀ tr : Train, (expand tr).length = trainTicks tr) ∧
  (∀ (pre post : Train) (l : Level) (m n : Nat),
    expand (pre ++ { level := l, ticks := m + n } :: post) =
      expand (pre ++ { level := l, ticks := m } :: { level := l, ticks := n } :: post))

/-- 30_encoding.md R86 (its composition is the spec's own choice, 92_eei_decisions.md D11, log 18): the reset train is
24 ticks Low, and every train of Low pulses that lasts 24 ticks is the same signal on the wire. -/
def Obligations.ResetTrainIsTwentyFourLowTicks : Prop :=
  expand resetTrain = List.replicate 24 .low ∧
  ∀ tr : Train, (∀ p ∈ tr, p.level = .low) → trainTicks tr = 24 → expand tr = expand resetTrain

/-- 20_memory.md R62: decoding the selections gives the packed value back; the pulses alone determine it exactly when
the two pairs differ (`Distinct`), which fails at 1 428 572. -/
def Obligations.SelectionsDecodeToPack : Prop :=
  (∀ r g b : Byte, decodeSelections (selections (pack r g b)) = (pack r g b).toNat) ∧
  (∀ f, distinct f = true ↔ (ticks 350 f ≠ ticks 700 f ∨ ticks 800 f ≠ ticks 600 f)) ∧
  (∀ f, distinct f = true ↔
    ∀ v v' : BitVec 24,
      pixelTrain ⟨mkPulse .high 350 f, mkPulse .low 800 f⟩ ⟨mkPulse .high 700 f, mkPulse .low 600 f⟩ v =
        pixelTrain ⟨mkPulse .high 350 f, mkPulse .low 800 f⟩ ⟨mkPulse .high 700 f, mkPulse .low 600 f⟩ v' → v = v') ∧
  distinct 1428572 = false

/-- 20_memory.md R61, R62: at every frequency that passes calibration and keeps the pairs distinct, the tick-by-tick
signal on the wire identifies the colour; and where the pairs are equal every colour gives the same signal. -/
def Obligations.WireSignalIdentifiesColour : Prop :=
  ∀ f, 1428572 ≤ f →
    (distinct f = true → ∀ r g b r' g' b' : Byte,
      expand (pixelTrain ⟨mkPulse .high 350 f, mkPulse .low 800 f⟩ ⟨mkPulse .high 700 f, mkPulse .low 600 f⟩
        (pack r g b)) =
      expand (pixelTrain ⟨mkPulse .high 350 f, mkPulse .low 800 f⟩ ⟨mkPulse .high 700 f, mkPulse .low 600 f⟩
        (pack r' g' b')) → r = r' ∧ g = g' ∧ b = b') ∧
    (distinct f = false → ∀ r g b r' g' b' : Byte,
      expand (pixelTrain ⟨mkPulse .high 350 f, mkPulse .low 800 f⟩ ⟨mkPulse .high 700 f, mkPulse .low 600 f⟩
        (pack r g b)) =
      expand (pixelTrain ⟨mkPulse .high 350 f, mkPulse .low 800 f⟩ ⟨mkPulse .high 700 f, mkPulse .low 600 f⟩
        (pack r' g' b')))

/-- 70_reset_and_hazards.md R215 (41_set_pixel.md R148(e)): the length of a pixel train in ticks; with exact
calibration its real duration, between 27 600 and 31 200 ns. -/
def Obligations.PixelTrainDuration : Prop :=
  (∀ (p0 p1 : Pair) (v : BitVec 24), countOnes v ≤ 24 ∧
    trainTicks (pixelTrain p0 p1 v) =
      (24 - countOnes v) * (p0.high.ticks + p0.low.ticks) + countOnes v * (p1.high.ticks + p1.low.ticks)) ∧
  (∀ (f : Nat) (v : BitVec 24), 0 < f → 20000000 ∣ f →
    durationNs (trainTicks (pixelTrain ⟨mkPulse .high 350 f, mkPulse .low 800 f⟩
      ⟨mkPulse .high 700 f, mkPulse .low 600 f⟩ v)) f = (((24 - countOnes v) * 1150 + countOnes v * 1300 : Nat) : Rat) ∧
    27600 ≤ (24 - countOnes v) * 1150 + countOnes v * 1300 ∧
    (24 - countOnes v) * 1150 + countOnes v * 1300 ≤ 31200) ∧
  (countOnes 0#24 = 0 ∧ countOnes 0xFFFFFF#24 = 24)

/-! ## NEW -/

/-- 10_state.md R21, 40_construct.md R117 (the tie rule, `MAX_TICKS`, the one-pulse reset train and the phase are the
spec's own choices, 92_eei_decisions.md D7, D9, D11, D1; `results` is the model's record, log 8): `NEW` completes when
no Driver exists, the hardware layer answers, and the four durations fit: the whole next state. -/
def Obligations.NewConstructsDriver : Prop :=
  ∀ s : State, s.phase = .unbound → s.draws.cfgOk = true → s.draws.clkOk = true → s.draws.txOk = true →
    1428572 ≤ s.ticksHz →
    (∀ m, s.inst.maxTicks = some m → ∀ ns ∈ [350, 800, 700, 600], ticks ns s.ticksHz ≤ m) →
    exec .new s = .next
      { s with phase := .idle, div := some 2, f := some s.ticksHz,
               t0h := some ⟨.high, (350 * s.ticksHz + 500000000) / 1000000000⟩,
               t0l := some ⟨.low, (800 * s.ticksHz + 500000000) / 1000000000⟩,
               t1h := some ⟨.high, (700 * s.ticksHz + 500000000) / 1000000000⟩,
               t1l := some ⟨.low, (600 * s.ticksHz + 500000000) / 1000000000⟩,
               owns := true, wire := s.wire ++ [.sent [⟨.low, 24⟩]], results := s.results ++ [.ok] }

/-- 60_exceptions.md R175, 40_construct.md R118 (the state left is the spec's own choice, 92_eei_decisions.md D14, log
21): which error `NEW` reports, in step order, whatever the later draws are, and the whole state each leaves: back to
reset, the wire untouched by a configuration error and one `Unspecified` longer after a transmission error. -/
def Obligations.NewReportsFirstError : Prop :=
  ∀ s : State, s.phase = .unbound →
    let left (wire : List WireEvent) (e : HwError) : State :=
      { s with phase := .unbound, div := none, f := none, t0h := none, t0l := none, t1h := none, t1l := none,
               train := Vector.replicate 24 none, owns := false, wire := wire, results := s.results ++ [.err e] }
    (s.draws.cfgOk = false → exec .new s = .next (left s.wire .hardwareConfigError)) ∧
    (s.draws.cfgOk = true → s.draws.clkOk = false → exec .new s = .next (left s.wire .hardwareConfigError)) ∧
    (s.draws.cfgOk = true → s.draws.clkOk = true →
      (∃ m, s.inst.maxTicks = some m ∧ ∃ ns ∈ [350, 800, 700, 600], m < ticks ns s.ticksHz) →
      exec .new s = .next (left s.wire .hardwareConfigError)) ∧
    (s.draws.cfgOk = true → s.draws.clkOk = true → 1428572 ≤ s.ticksHz →
      (∀ m, s.inst.maxTicks = some m → ∀ ns ∈ [350, 800, 700, 600], ticks ns s.ticksHz ≤ m) →
      s.draws.txOk = false →
      exec .new s = .next (left (s.wire ++ [.unspecified]) .transmitError))

/-- 40_construct.md R115(b), R120 (the spec's own choice, 92_eei_decisions.md D8; the refusal as a next state: log 7):
a frequency that makes a duration zero refuses `NEW`, whatever the transmission would answer, and every write made
before the check is discarded. -/
def Obligations.NewZeroTickRefused : Prop :=
  ∀ s : State, s.phase = .unbound → s.draws.cfgOk = true → s.draws.clkOk = true → s.ticksHz ≤ 1428571 →
    (∀ m, s.inst.maxTicks = some m → ∀ ns ∈ [350, 800, 700, 600], ticks ns s.ticksHz ≤ m) →
    exec .new s = .next { s with refused := true, refusals := s.refusals ++ [.zeroTickPulse] }

/-- 40_construct.md R111 (92_eei_decisions.md D16; log 7): `NEW` is refused unless `PHASE = UNBOUND`. -/
def Obligations.NewWhileBoundRefused : Prop :=
  ∀ s : State, s.phase ≠ .unbound →
    exec .new s = .next { s with refused := true, refusals := s.refusals ++ [.newWhileBound] }

/-- 70_reset_and_hazards.md R217 (92_eei_decisions.md D24, log 28): a frequency outside the tolerance still constructs
a Driver. -/
def Obligations.ToleranceNotEnforced : Prop :=
  inTol 2000000 = false ∧
  ∀ s : State, s.phase = .unbound → s.draws = Draws.allTrue → s.inst.maxTicks = none → s.ticksHz = 2000000 →
    ∃ t, exec .new s = .next t ∧ t.phase = .idle ∧ t.results = s.results ++ [.ok] ∧ t.refused = s.refused

/-- 40_construct.md R121: the worked example of `NEW`, at 40 000 000 ticks per second. -/
def Obligations.NewAtFortyMegahertz : Prop :=
  ∀ s : State, s.ResetValues → s.wire = [] → s.draws = Draws.allTrue → s.inst.maxTicks = none → s.ticksHz = 40000000 →
    exec .new s = .next
      { s with phase := .idle, div := some 2, f := some 40000000, t0h := some ⟨.high, 14⟩, t0l := some ⟨.low, 32⟩,
               t1h := some ⟨.high, 28⟩, t1l := some ⟨.low, 24⟩, owns := true, wire := [.sent [⟨.low, 24⟩]],
               results := s.results ++ [.ok] } ∧
    durationNs 1 40000000 = 25 ∧ durationNs (trainTicks [⟨.low, 24⟩]) 40000000 = 600

/-! ## SET_PIXEL -/

/-- 41_set_pixel.md R144, R146, R147, 20_memory.md R55 (the `Sent` event is the spec's own choice, 92_eei_decisions.md
D12; `results` is the model's record, DESIGN CHOICE, log 8; that a register of zero ticks, which no run has, is sent
too is the model's DESIGN CHOICE, log 33): `SET_PIXEL` completes when a Driver exists and the hardware layer accepts:
the whole next state, with the 48-pulse train written out by slot. -/
def Obligations.SetPixelSendsTrain : Prop :=
  ∀ (s : State) (r g b : Byte) (h0 l0 h1 l1 : Pulse), s.phase = .idle → s.t0h = some h0 → s.t0l = some l0 →
    s.t1h = some h1 → s.t1l = some l1 → s.draws.txOk = true →
    exec (.setPixel r g b) s = .next
      { s with train := Vector.replicate 24 none,
               wire := s.wire ++ [.sent
                 (((List.range 8).flatMap fun k => if g.getLsbD (7 - k) then [h1, l1] else [h0, l0]) ++
                  ((List.range 8).flatMap fun k => if r.getLsbD (7 - k) then [h1, l1] else [h0, l0]) ++
                  ((List.range 8).flatMap fun k => if b.getLsbD (7 - k) then [h1, l1] else [h0, l0]))],
               results := s.results ++ [.ok] }

/-- 41_set_pixel.md R147, 60_exceptions.md R177 (92_eei_decisions.md D15; registers of zero ticks, which no run has,
included by the model's DESIGN CHOICE, log 33): a failed transmission returns `TransmitError` and leaves the block as
it was, the buffer empty, the wire one `Unspecified` longer. -/
def Obligations.SetPixelTransmitError : Prop :=
  ∀ (s : State) (r g b : Byte) (h0 l0 h1 l1 : Pulse), s.phase = .idle → s.t0h = some h0 → s.t0l = some l0 →
    s.t1h = some h1 → s.t1l = some l1 → s.draws.txOk = false →
    exec (.setPixel r g b) s = .next
      { s with train := Vector.replicate 24 none, wire := s.wire ++ [.unspecified],
               results := s.results ++ [.err .transmitError] }

/-- 41_set_pixel.md R141 (92_eei_decisions.md D16; log 7): `SET_PIXEL` is refused unless `PHASE = IDLE`, for every
colour. -/
def Obligations.SetPixelWithoutDriverRefused : Prop :=
  ∀ (s : State) (r g b : Byte), s.phase ≠ .idle →
    exec (.setPixel r g b) s = .next { s with refused := true, refusals := s.refusals ++ [.setPixelWithoutDriver] }

/-- 10_state.md R23 (that the refusal of such a read has the effect of R185 is the model's inference, log 10): at
reset the four registers hold `none`; a `SET_PIXEL` that would read one is refused; in no state that keeps the
invariant does a command come to such a read. -/
def Obligations.UnwrittenRegisterReadRefused : Prop :=
  (State.reset.t0h = none ∧ State.reset.t0l = none ∧ State.reset.t1h = none ∧ State.reset.t1l = none) ∧
  (∀ (s : State) (r g b : Byte), s.phase = .idle →
    (((∃ i, i < 24 ∧ (pack r g b).getLsbD i = true) ∧ (s.t1h = none ∨ s.t1l = none)) ∨
     ((∃ i, i < 24 ∧ (pack r g b).getLsbD i = false) ∧ (s.t0h = none ∨ s.t0l = none))) →
    exec (.setPixel r g b) s = .next { s with refused := true, refusals := s.refusals ++ [.unwrittenRead] }) ∧
  (∀ (s t : State), s.Inv → step s = .next t → t.refusals ≠ s.refusals ++ [.unwrittenRead])

/-- 41_set_pixel.md R140, 20_memory.md R60 (`results` and `refusals` are the model's records, log 7, log 8): what
`SET_PIXEL` does depends on the phase, the four registers and the draw `tx_ok` only. Any two states that agree on these,
whatever else they hold (the other draws, the tick frequency, the parameters, `DIV`, `F`, the buffer, `owns`, the wire's
history, the mark, the earlier responses and reasons, the host's events), complete alike: the same events, responses and
reasons are appended, the mark is set in both or in neither, and the buffer is emptied in both or left in both. -/
def Obligations.SetPixelReadsOnlyItsInputs : Prop :=
  ∀ (s s' t : State) (r g b : Byte), s.phase = s'.phase → s.t0h = s'.t0h → s.t0l = s'.t0l → s.t1h = s'.t1h →
    s.t1l = s'.t1l → s.draws.txOk = s'.draws.txOk → exec (.setPixel r g b) s = .next t →
    ∃ t' evs answers reasons mark, exec (.setPixel r g b) s' = .next t' ∧ t'.phase = t.phase ∧
      t.wire = s.wire ++ evs ∧ t'.wire = s'.wire ++ evs ∧
      t.results = s.results ++ answers ∧ t'.results = s'.results ++ answers ∧
      t.refusals = s.refusals ++ reasons ∧ t'.refusals = s'.refusals ++ reasons ∧
      t.refused = (s.refused || mark) ∧ t'.refused = (s'.refused || mark) ∧
      ((t.train = s.train ∧ t'.train = s'.train) ∨
        (t.train = Vector.replicate 24 none ∧ t'.train = Vector.replicate 24 none))

/-- 20_memory.md R60: no stale train: two blocks with the same four registers append the same event for the same
colour, and the same colour twice appends two equal events. -/
def Obligations.SameColourSameTrain : Prop :=
  (∀ (s s' t t' : State) (r g b : Byte), s.phase = .idle → s'.phase = .idle → s.draws.txOk = true →
    s'.draws.txOk = true → s.t0h = s'.t0h → s.t0l = s'.t0l → s.t1h = s'.t1h → s.t1l = s'.t1l →
    exec (.setPixel r g b) s = .next t → exec (.setPixel r g b) s' = .next t' →
    ∃ evs, t.wire = s.wire ++ evs ∧ t'.wire = s'.wire ++ evs) ∧
  (∀ (s t u : State) (r g b : Byte), s.Inv → s.phase = .idle → s.draws.txOk = true →
    exec (.setPixel r g b) s = .next t → exec (.setPixel r g b) t = .next u →
    ∃ tr, t.wire = s.wire ++ [.sent tr] ∧ u.wire = s.wire ++ [.sent tr, .sent tr])

/-- 41_set_pixel.md R150: the worked example, colour (50, 0, 0) at the calibration of R121. -/
def Obligations.RedFiftyTrain : Prop :=
  pack 50#8 0#8 0#8 = 0x003200#24 ∧
  (∀ k, k < 24 → ((selections (pack 50#8 0#8 0#8))[k]? = some true ↔ k = 10 ∨ k = 11 ∨ k = 14)) ∧
  trainTicks (pixelTrain ⟨⟨.high, 14⟩, ⟨.low, 32⟩⟩ ⟨⟨.high, 28⟩, ⟨.low, 24⟩⟩ (pack 50#8 0#8 0#8)) = 1122 ∧
  durationNs 1122 40000000 = 28050

/-! ## Errors, refusals, frames -/

/-- 60_exceptions.md R171 (the state left: 92_eei_decisions.md D14, log 21): only `NEW` raises `HardwareConfigError`,
with the wire unchanged and no Driver produced. -/
def Obligations.ConfigErrorOnlyFromNew : Prop :=
  ∀ s t : State, step s = .next t → t.results = s.results ++ [.err .hardwareConfigError] →
    (∃ d rest, s.inputs = .command 0x01000000#32 d :: rest) ∧ t.wire = s.wire ∧ t.ResetValues

/-- 60_exceptions.md R172 (the event and the states left: 92_eei_decisions.md D12, D14, D15, log 21, log 22): a step
returns `TransmitError` exactly when it appends `Unspecified` to the wire (once: no retry); after one of `NEW` there
is no Driver, after one of `SET_PIXEL` the Driver is as it was; both commands can raise it. -/
def Obligations.TransmitErrorIffUnspecified : Prop :=
  (∀ s t : State, step s = .next t →
    (t.results = s.results ++ [.err .transmitError] ↔ t.wire = s.wire ++ [.unspecified])) ∧
  (∀ s t : State, step s = .next t → t.results = s.results ++ [.err .transmitError] →
    (s.phase = .unbound ∧ (∃ d rest, s.inputs = .command 0x01000000#32 d :: rest) ∧ t.ResetValues) ∨
    (s.phase = .idle ∧ (∃ r g b d rest, s.inputs = .command (encode (.setPixel r g b)) d :: rest) ∧ t.phase = .idle ∧
      t.div = s.div ∧ t.f = s.f ∧ t.t0h = s.t0h ∧ t.t0l = s.t0l ∧ t.t1h = s.t1h ∧ t.t1l = s.t1l ∧ t.owns = s.owns)) ∧
  (∀ i : Instr, ∃ s t, exec i s = .next t ∧ t.results = s.results ++ [.err .transmitError])

/-- 60_exceptions.md R185 (a refusal as a next state that names its reason is the model's reading, log 7): a step that
refuses sets the mark, names the reason, and changes nothing else of the block (the host's event is gone, and its
draws are what the port last saw); a step that does not refuse leaves the mark as it was; so the mark is never
cleared. -/
def Obligations.RefusalChangesNothingElse : Prop :=
  ∀ s t : State, step s = .next t →
    (t.refusals = s.refusals ∧ t.refused = s.refused) ∨
    (∃ why e rest, s.inputs = e :: rest ∧
      t = { s with inputs := rest, draws := (match e with | .command _ d => d | _ => s.draws), refused := true,
                   refusals := s.refusals ++ [why] })

/-- What a command leaves unchanged, however it ends. `SET_PIXEL` (10_state.md R22, 41_set_pixel.md R147): every
calibration register, `DIV`, `F`, `owns`. `NEW`: the buffer, unless it fails. Both: the parameters, the draws, the
host's events, and every earlier event, response and reason. -/
def Obligations.CommandFrame : Prop :=
  (∀ (r g b : Byte) (s t : State), exec (.setPixel r g b) s = .next t →
    t.t0h = s.t0h ∧ t.t0l = s.t0l ∧ t.t1h = s.t1h ∧ t.t1l = s.t1l ∧ t.div = s.div ∧ t.f = s.f ∧ t.owns = s.owns ∧
    t.phase = s.phase) ∧
  (∀ s t : State, exec .new s = .next t → t.train = s.train ∨ ∃ e, t.results = s.results ++ [.err e]) ∧
  (∀ (i : Instr) (s t : State), exec i s = .next t →
    t.inst = s.inst ∧ t.ticksHz = s.ticksHz ∧ t.draws = s.draws ∧ t.inputs = s.inputs ∧ s.wire <+: t.wire ∧
    s.results <+: t.results ∧ s.refusals <+: t.refusals)

/-! ## The machine -/

/-- 10_state.md R34 (92_eei_decisions.md D20): the reset values; and a failed `NEW` and a `RELEASE` lead back to them,
but for the wire and the mark, which are kept. -/
def Obligations.ResetState : Prop :=
  (State.reset.ResetValues ∧ State.reset.wire = [] ∧ State.reset.refused = false ∧
    State.reset.wireLevel = .low) ∧
  (∀ (s t : State) (e : HwError), exec .new s = .next t → t.results = s.results ++ [.err e] →
    t.ResetValues ∧ s.wire <+: t.wire ∧ t.refused = s.refused) ∧
  (∀ s t : State, s.phase = .idle → execRelease s = .next t →
    t.ResetValues ∧ t.wire = s.wire ∧ t.refused = s.refused)

/-- The invariant of the states between steps holds at reset (10_state.md R24, R30, R33, R34). -/
def Obligations.InvariantAtReset : Prop := State.reset.Inv

/-- Every step keeps the invariant: no `TRANSMITTING` between steps, an empty buffer, `owns` as R33 says, no register
held without a Driver, and with one the calibration of R21 at the frequency still reported (R210), every duration from
1 to `MAX_TICKS`; the mark set exactly when something was refused; every event on the wire a reset train, a pixel
train that fits, or `Unspecified`. -/
def Obligations.StepKeepsInvariant : Prop :=
  ∀ s t : State, s.Inv → step s = .next t → t.Inv

/-- 00_scope.md R10: whether a command has a step never depends on a draw. In this model every state has a next one.
That is the model's choice in three places: a hardware layer that never answers is not modelled (DESIGN CHOICE, log 13:
70_reset_and_hazards.md R213, 92_eei_decisions.md D22, 93_implementation_defined.md U7), so read as a claim about the
hardware this one takes the premise that the hardware layer answers every request; a block with no event left waits by a
step that changes nothing (DESIGN CHOICE, log 1); and the errors and refusals of the spec are next states (log 7,
log 30). -/
def Obligations.EveryStateHasANextState : Prop :=
  ∀ s : State, ∃ t, step s = .next t

/-- 10_state.md R25: between steps the phase changes in two ways only: `UNBOUND` to `IDLE` by a `NEW` that returns
`Ok`, and `IDLE` to `UNBOUND` by `RELEASE`. -/
def Obligations.PhaseTransitions : Prop :=
  ∀ s t : State, s.Inv → step s = .next t →
    t.phase = s.phase ∨
    (s.phase = .unbound ∧ t.phase = .idle ∧ (∃ d rest, s.inputs = .command 0x01000000#32 d :: rest) ∧
      t.results = s.results ++ [.ok]) ∨
    (s.phase = .idle ∧ t.phase = .unbound ∧ ∃ rest, s.inputs = .release :: rest)

/-- 10_state.md R31, 20_memory.md R55, R58: the wire history is append-only, and a step adds at most one event. -/
def Obligations.WireIsAppendOnly : Prop :=
  ∀ s t : State, step s = .next t → t.wire = s.wire ∨ ∃ e, t.wire = s.wire ++ [e]

/-- 70_reset_and_hazards.md R202 (92_eei_decisions.md D21, log 20): `RELEASE` with a Driver returns the registers to
`none` and the handles, transmits nothing and answers nothing; without one it is refused. -/
def Obligations.ReleaseDestroysDriver : Prop :=
  ∀ (s : State) (rest : List HostEvent), s.inputs = .release :: rest →
    (s.phase = .idle → step s = .next
      { s with inputs := rest, phase := .unbound, div := none, f := none, t0h := none, t0l := none, t1h := none,
               t1l := none, owns := false, train := Vector.replicate 24 none }) ∧
    (s.phase ≠ .idle → step s = .next
      { s with inputs := rest, refused := true, refusals := s.refusals ++ [.releaseWithoutDriver] })

/-- 10_state.md R22: while a Driver lives, whatever the host offers but `RELEASE`, the calibration registers, `DIV`
and `F` keep their values, however many steps run. -/
def Obligations.CalibrationFixedWhileDriverLives : Prop :=
  ∀ (n : Nat) (s t : State), s.Inv → s.phase = .idle → HostEvent.release ∉ s.inputs.take n →
    Host.Core.run core n s = .next t →
    t.phase = .idle ∧ t.t0h = s.t0h ∧ t.t0l = s.t0l ∧ t.t1h = s.t1h ∧ t.t1l = s.t1l ∧ t.div = s.div ∧ t.f = s.f ∧
    t.owns = s.owns

/-- 40_construct.md R119: a `NEW` that constructs appends exactly one event, the reset train; and in every run from
there without a `RELEASE`, whatever else the host offers, no event appended carries a reset signal (24 ticks Low). -/
def Obligations.OneResetTrainPerDriver : Prop :=
  ∀ s t : State, s.Inv → s.phase = .unbound → step s = .next t → t.phase = .idle →
    t.wire = s.wire ++ [.sent resetTrain] ∧
    ∀ (n : Nat) (u : State), HostEvent.release ∉ t.inputs.take n → Host.Core.run core n t = .next u →
      ∃ evs, u.wire = t.wire ++ evs ∧ ∀ tr, .sent tr ∈ evs → expand tr ≠ List.replicate 24 .low

/-- 70_reset_and_hazards.md R203 (the frequency and the commands as host events: log 1, log 16): after a `RELEASE`, or
after a `NEW` that failed for whatever cause, a new `NEW` is admitted and runs all of R117 again: the divisor, the
frequency read afresh (it may differ), the four pulses derived afresh, one new reset train. -/
def Obligations.ReconstructionStartsAfresh : Prop :=
  ∀ (s s1 : State) (hz : Nat) (rest : List HostEvent), s.Inv → step s = .next s1 →
    ((s.phase = .idle ∧ ∃ more, s.inputs = .release :: more) ∨
     (s.phase = .unbound ∧ ∃ e, s1.results = s.results ++ [.err e])) →
    s1.inputs = .tickRate hz :: .command 0x01000000#32 Draws.allTrue :: rest → 1428572 ≤ hz →
    (∀ m, s.inst.maxTicks = some m → ∀ ns ∈ [350, 800, 700, 600], ticks ns hz ≤ m) →
    s1.ResetValues ∧
    ∃ t, Host.Core.run core 2 s1 = .next t ∧ t.phase = .idle ∧ t.div = some 2 ∧ t.f = some hz ∧ t.calibratedAt hz ∧
      t.owns = true ∧ t.wire = s1.wire ++ [.sent resetTrain] ∧ t.results = s1.results ++ [.ok] ∧ t.inputs = rest ∧
      t.refused = s.refused

/-- 60_exceptions.md R178, 41_set_pixel.md R149(f): after a failed `SET_PIXEL` another one is admitted at once and
sends the train the first one would have sent, with no reset train before it. -/
def Obligations.RetryAfterTransmitError : Prop :=
  ∀ (s t : State) (r g b : Byte) (d : Draws) (rest : List HostEvent), s.Inv → s.phase = .idle →
    s.draws.txOk = false → exec (.setPixel r g b) s = .next t → d.txOk = true →
    s.inputs = .command (encode (.setPixel r g b)) d :: rest →
    ∃ u v tr, step t = .next u ∧ u.wire = s.wire ++ [.unspecified, .sent tr] ∧
      u.results = s.results ++ [.err .transmitError, .ok] ∧
      exec (.setPixel r g b) { s with draws := d } = .next v ∧ v.wire = s.wire ++ [.sent tr]

/-- 70_reset_and_hazards.md R209 (how an overlap is offered is the model's choice, log 14; that a reserved word, too, gets
this reason is the model's choice, log 32): a command offered while another runs is refused. -/
def Obligations.ConcurrentCommandRefused : Prop :=
  ∀ (s : State) (w : Word) (d : Draws) (rest : List HostEvent),
    (s.inputs = .overlapped w :: rest → step s = .next
      { s with inputs := rest, refused := true, refusals := s.refusals ++ [.concurrentCommand] }) ∧
    (s.inputs = .command w d :: rest → s.phase = .transmitting → step s = .next
      { s with inputs := rest, draws := d, refused := true, refusals := s.refusals ++ [.concurrentCommand] })

/-- 70_reset_and_hazards.md R208, R210, 20_memory.md R57, 60_exceptions.md R184: use of the block's own pin or channel
by anyone else is refused, of another pin or channel it is nothing to the block; a change of the tick frequency is
refused while a Driver lives and free before. That the host's list offers these things as events is the model's choice
(log 15, log 16). -/
def Obligations.ForeignAccessRefused : Prop :=
  ∀ (s : State) (p : PinToken) (c : ChannelToken) (hz : Nat) (rest : List HostEvent),
    let refusedNow : State :=
      { s with inputs := rest, refused := true, refusals := s.refusals ++ [.foreignAccess] }
    (s.inputs = .foreignPin p :: rest →
      step s = .next (if p = s.inst.pin then refusedNow else { s with inputs := rest })) ∧
    (s.inputs = .foreignChannel c :: rest →
      step s = .next (if c = s.inst.channel then refusedNow else { s with inputs := rest })) ∧
    (s.inputs = .tickRate hz :: rest →
      step s = .next (if s.phase = .unbound then { s with inputs := rest, ticksHz := hz }
        else if hz = s.ticksHz then { s with inputs := rest } else refusedNow))

/-- 10_state.md R24, R31: a block that is offered nothing waits. That waiting is a step that changes nothing is the
model's choice (log 1). -/
def Obligations.IdleBlockWaits : Prop :=
  ∀ s : State, s.inputs = [] → step s = .next s
end

