-- ==== Sys2Proof/Laws/State.lean ====
section
/-! SUPPORT. What each named update of the state does to each field: one lemma a field, all by rfl. -/

namespace Sys2Proof.Machine

/-- The state a successful `NEW` leaves, before its response (40_construct.md R117). -/
def State.constructed (s : State) : State :=
  ((((s.takeHandles.setDiv clkDiv).setF s.ticksHz).calibrate s.ticksHz).emit (.sent resetTrain)).setPhase .idle

/-- The state a `SET_PIXEL` leaves whose transmission put `e` on the wire, before its response (41_set_pixel.md R147). -/
def State.afterPixel (e : WireEvent) (s : State) : State := (s.emit e).finishPixel

section setPhase

/-! `c[PHASE] <- v`. -/
variable (s : State) (v : Phase)

@[simp] theorem State.setPhase_phase : (s.setPhase v).phase = v := rfl
@[simp] theorem State.setPhase_div : (s.setPhase v).div = s.div := rfl
@[simp] theorem State.setPhase_f : (s.setPhase v).f = s.f := rfl
@[simp] theorem State.setPhase_t0h : (s.setPhase v).t0h = s.t0h := rfl
@[simp] theorem State.setPhase_t0l : (s.setPhase v).t0l = s.t0l := rfl
@[simp] theorem State.setPhase_t1h : (s.setPhase v).t1h = s.t1h := rfl
@[simp] theorem State.setPhase_t1l : (s.setPhase v).t1l = s.t1l := rfl
@[simp] theorem State.setPhase_train : (s.setPhase v).train = s.train := rfl
@[simp] theorem State.setPhase_owns : (s.setPhase v).owns = s.owns := rfl
@[simp] theorem State.setPhase_wire : (s.setPhase v).wire = s.wire := rfl
@[simp] theorem State.setPhase_refused : (s.setPhase v).refused = s.refused := rfl
@[simp] theorem State.setPhase_inst : (s.setPhase v).inst = s.inst := rfl
@[simp] theorem State.setPhase_ticksHz : (s.setPhase v).ticksHz = s.ticksHz := rfl
@[simp] theorem State.setPhase_draws : (s.setPhase v).draws = s.draws := rfl
@[simp] theorem State.setPhase_inputs : (s.setPhase v).inputs = s.inputs := rfl
@[simp] theorem State.setPhase_results : (s.setPhase v).results = s.results := rfl
@[simp] theorem State.setPhase_refusals : (s.setPhase v).refusals = s.refusals := rfl

end setPhase

section setDiv

/-! `c[DIV] <- v`. -/
variable (s : State) (v : Nat)

@[simp] theorem State.setDiv_phase : (s.setDiv v).phase = s.phase := rfl
@[simp] theorem State.setDiv_div : (s.setDiv v).div = some v := rfl
@[simp] theorem State.setDiv_f : (s.setDiv v).f = s.f := rfl
@[simp] theorem State.setDiv_t0h : (s.setDiv v).t0h = s.t0h := rfl
@[simp] theorem State.setDiv_t0l : (s.setDiv v).t0l = s.t0l := rfl
@[simp] theorem State.setDiv_t1h : (s.setDiv v).t1h = s.t1h := rfl
@[simp] theorem State.setDiv_t1l : (s.setDiv v).t1l = s.t1l := rfl
@[simp] theorem State.setDiv_train : (s.setDiv v).train = s.train := rfl
@[simp] theorem State.setDiv_owns : (s.setDiv v).owns = s.owns := rfl
@[simp] theorem State.setDiv_wire : (s.setDiv v).wire = s.wire := rfl
@[simp] theorem State.setDiv_refused : (s.setDiv v).refused = s.refused := rfl
@[simp] theorem State.setDiv_inst : (s.setDiv v).inst = s.inst := rfl
@[simp] theorem State.setDiv_ticksHz : (s.setDiv v).ticksHz = s.ticksHz := rfl
@[simp] theorem State.setDiv_draws : (s.setDiv v).draws = s.draws := rfl
@[simp] theorem State.setDiv_inputs : (s.setDiv v).inputs = s.inputs := rfl
@[simp] theorem State.setDiv_results : (s.setDiv v).results = s.results := rfl
@[simp] theorem State.setDiv_refusals : (s.setDiv v).refusals = s.refusals := rfl

end setDiv

section setF

/-! `c[F] <- v`. -/
variable (s : State) (v : Nat)

@[simp] theorem State.setF_phase : (s.setF v).phase = s.phase := rfl
@[simp] theorem State.setF_div : (s.setF v).div = s.div := rfl
@[simp] theorem State.setF_f : (s.setF v).f = some v := rfl
@[simp] theorem State.setF_t0h : (s.setF v).t0h = s.t0h := rfl
@[simp] theorem State.setF_t0l : (s.setF v).t0l = s.t0l := rfl
@[simp] theorem State.setF_t1h : (s.setF v).t1h = s.t1h := rfl
@[simp] theorem State.setF_t1l : (s.setF v).t1l = s.t1l := rfl
@[simp] theorem State.setF_train : (s.setF v).train = s.train := rfl
@[simp] theorem State.setF_owns : (s.setF v).owns = s.owns := rfl
@[simp] theorem State.setF_wire : (s.setF v).wire = s.wire := rfl
@[simp] theorem State.setF_refused : (s.setF v).refused = s.refused := rfl
@[simp] theorem State.setF_inst : (s.setF v).inst = s.inst := rfl
@[simp] theorem State.setF_ticksHz : (s.setF v).ticksHz = s.ticksHz := rfl
@[simp] theorem State.setF_draws : (s.setF v).draws = s.draws := rfl
@[simp] theorem State.setF_inputs : (s.setF v).inputs = s.inputs := rfl
@[simp] theorem State.setF_results : (s.setF v).results = s.results := rfl
@[simp] theorem State.setF_refusals : (s.setF v).refusals = s.refusals := rfl

end setF

section takeHandles

/-! The handles are taken (R112). -/
variable (s : State)

@[simp] theorem State.takeHandles_phase : s.takeHandles.phase = s.phase := rfl
@[simp] theorem State.takeHandles_div : s.takeHandles.div = s.div := rfl
@[simp] theorem State.takeHandles_f : s.takeHandles.f = s.f := rfl
@[simp] theorem State.takeHandles_t0h : s.takeHandles.t0h = s.t0h := rfl
@[simp] theorem State.takeHandles_t0l : s.takeHandles.t0l = s.t0l := rfl
@[simp] theorem State.takeHandles_t1h : s.takeHandles.t1h = s.t1h := rfl
@[simp] theorem State.takeHandles_t1l : s.takeHandles.t1l = s.t1l := rfl
@[simp] theorem State.takeHandles_train : s.takeHandles.train = s.train := rfl
@[simp] theorem State.takeHandles_owns : s.takeHandles.owns = true := rfl
@[simp] theorem State.takeHandles_wire : s.takeHandles.wire = s.wire := rfl
@[simp] theorem State.takeHandles_refused : s.takeHandles.refused = s.refused := rfl
@[simp] theorem State.takeHandles_inst : s.takeHandles.inst = s.inst := rfl
@[simp] theorem State.takeHandles_ticksHz : s.takeHandles.ticksHz = s.ticksHz := rfl
@[simp] theorem State.takeHandles_draws : s.takeHandles.draws = s.draws := rfl
@[simp] theorem State.takeHandles_inputs : s.takeHandles.inputs = s.inputs := rfl
@[simp] theorem State.takeHandles_results : s.takeHandles.results = s.results := rfl
@[simp] theorem State.takeHandles_refusals : s.takeHandles.refusals = s.refusals := rfl

end takeHandles

section setTrain

/-! The buffer is replaced. -/
variable (s : State) (buf : TrainBuffer)

@[simp] theorem State.setTrain_phase : (s.setTrain buf).phase = s.phase := rfl
@[simp] theorem State.setTrain_div : (s.setTrain buf).div = s.div := rfl
@[simp] theorem State.setTrain_f : (s.setTrain buf).f = s.f := rfl
@[simp] theorem State.setTrain_t0h : (s.setTrain buf).t0h = s.t0h := rfl
@[simp] theorem State.setTrain_t0l : (s.setTrain buf).t0l = s.t0l := rfl
@[simp] theorem State.setTrain_t1h : (s.setTrain buf).t1h = s.t1h := rfl
@[simp] theorem State.setTrain_t1l : (s.setTrain buf).t1l = s.t1l := rfl
@[simp] theorem State.setTrain_train : (s.setTrain buf).train = buf := rfl
@[simp] theorem State.setTrain_owns : (s.setTrain buf).owns = s.owns := rfl
@[simp] theorem State.setTrain_wire : (s.setTrain buf).wire = s.wire := rfl
@[simp] theorem State.setTrain_refused : (s.setTrain buf).refused = s.refused := rfl
@[simp] theorem State.setTrain_inst : (s.setTrain buf).inst = s.inst := rfl
@[simp] theorem State.setTrain_ticksHz : (s.setTrain buf).ticksHz = s.ticksHz := rfl
@[simp] theorem State.setTrain_draws : (s.setTrain buf).draws = s.draws := rfl
@[simp] theorem State.setTrain_inputs : (s.setTrain buf).inputs = s.inputs := rfl
@[simp] theorem State.setTrain_results : (s.setTrain buf).results = s.results := rfl
@[simp] theorem State.setTrain_refusals : (s.setTrain buf).refusals = s.refusals := rfl

end setTrain

section emit

/-! One event on the wire (R31). -/
variable (s : State) (e : WireEvent)

@[simp] theorem State.emit_phase : (s.emit e).phase = s.phase := rfl
@[simp] theorem State.emit_div : (s.emit e).div = s.div := rfl
@[simp] theorem State.emit_f : (s.emit e).f = s.f := rfl
@[simp] theorem State.emit_t0h : (s.emit e).t0h = s.t0h := rfl
@[simp] theorem State.emit_t0l : (s.emit e).t0l = s.t0l := rfl
@[simp] theorem State.emit_t1h : (s.emit e).t1h = s.t1h := rfl
@[simp] theorem State.emit_t1l : (s.emit e).t1l = s.t1l := rfl
@[simp] theorem State.emit_train : (s.emit e).train = s.train := rfl
@[simp] theorem State.emit_owns : (s.emit e).owns = s.owns := rfl
@[simp] theorem State.emit_wire : (s.emit e).wire = s.wire ++ [e] := rfl
@[simp] theorem State.emit_refused : (s.emit e).refused = s.refused := rfl
@[simp] theorem State.emit_inst : (s.emit e).inst = s.inst := rfl
@[simp] theorem State.emit_ticksHz : (s.emit e).ticksHz = s.ticksHz := rfl
@[simp] theorem State.emit_draws : (s.emit e).draws = s.draws := rfl
@[simp] theorem State.emit_inputs : (s.emit e).inputs = s.inputs := rfl
@[simp] theorem State.emit_results : (s.emit e).results = s.results := rfl
@[simp] theorem State.emit_refusals : (s.emit e).refusals = s.refusals := rfl

end emit

section calibrate

/-! The calibration registers are written (R114). -/
variable (s : State) (hz : Nat)

@[simp] theorem State.calibrate_phase : (s.calibrate hz).phase = s.phase := rfl
@[simp] theorem State.calibrate_div : (s.calibrate hz).div = s.div := rfl
@[simp] theorem State.calibrate_f : (s.calibrate hz).f = s.f := rfl
@[simp] theorem State.calibrate_t0h : (s.calibrate hz).t0h = some (CalReg.t0h.calibrated hz) := rfl
@[simp] theorem State.calibrate_t0l : (s.calibrate hz).t0l = some (CalReg.t0l.calibrated hz) := rfl
@[simp] theorem State.calibrate_t1h : (s.calibrate hz).t1h = some (CalReg.t1h.calibrated hz) := rfl
@[simp] theorem State.calibrate_t1l : (s.calibrate hz).t1l = some (CalReg.t1l.calibrated hz) := rfl
@[simp] theorem State.calibrate_train : (s.calibrate hz).train = s.train := rfl
@[simp] theorem State.calibrate_owns : (s.calibrate hz).owns = s.owns := rfl
@[simp] theorem State.calibrate_wire : (s.calibrate hz).wire = s.wire := rfl
@[simp] theorem State.calibrate_refused : (s.calibrate hz).refused = s.refused := rfl
@[simp] theorem State.calibrate_inst : (s.calibrate hz).inst = s.inst := rfl
@[simp] theorem State.calibrate_ticksHz : (s.calibrate hz).ticksHz = s.ticksHz := rfl
@[simp] theorem State.calibrate_draws : (s.calibrate hz).draws = s.draws := rfl
@[simp] theorem State.calibrate_inputs : (s.calibrate hz).inputs = s.inputs := rfl
@[simp] theorem State.calibrate_results : (s.calibrate hz).results = s.results := rfl
@[simp] theorem State.calibrate_refusals : (s.calibrate hz).refusals = s.refusals := rfl

end calibrate

section unbind

/-! Back to the reset state, wire and mark kept (R118, R202). -/
variable (s : State)

@[simp] theorem State.unbind_phase : s.unbind.phase = .unbound := rfl
@[simp] theorem State.unbind_div : s.unbind.div = none := rfl
@[simp] theorem State.unbind_f : s.unbind.f = none := rfl
@[simp] theorem State.unbind_t0h : s.unbind.t0h = none := rfl
@[simp] theorem State.unbind_t0l : s.unbind.t0l = none := rfl
@[simp] theorem State.unbind_t1h : s.unbind.t1h = none := rfl
@[simp] theorem State.unbind_t1l : s.unbind.t1l = none := rfl
@[simp] theorem State.unbind_train : s.unbind.train = emptyBuffer := rfl
@[simp] theorem State.unbind_owns : s.unbind.owns = false := rfl
@[simp] theorem State.unbind_wire : s.unbind.wire = s.wire := rfl
@[simp] theorem State.unbind_refused : s.unbind.refused = s.refused := rfl
@[simp] theorem State.unbind_inst : s.unbind.inst = s.inst := rfl
@[simp] theorem State.unbind_ticksHz : s.unbind.ticksHz = s.ticksHz := rfl
@[simp] theorem State.unbind_draws : s.unbind.draws = s.draws := rfl
@[simp] theorem State.unbind_inputs : s.unbind.inputs = s.inputs := rfl
@[simp] theorem State.unbind_results : s.unbind.results = s.results := rfl
@[simp] theorem State.unbind_refusals : s.unbind.refusals = s.refusals := rfl

end unbind

section respond

/-! One response (R88). -/
variable (s : State) (r : Result)

@[simp] theorem State.respond_phase : (s.respond r).phase = s.phase := rfl
@[simp] theorem State.respond_div : (s.respond r).div = s.div := rfl
@[simp] theorem State.respond_f : (s.respond r).f = s.f := rfl
@[simp] theorem State.respond_t0h : (s.respond r).t0h = s.t0h := rfl
@[simp] theorem State.respond_t0l : (s.respond r).t0l = s.t0l := rfl
@[simp] theorem State.respond_t1h : (s.respond r).t1h = s.t1h := rfl
@[simp] theorem State.respond_t1l : (s.respond r).t1l = s.t1l := rfl
@[simp] theorem State.respond_train : (s.respond r).train = s.train := rfl
@[simp] theorem State.respond_owns : (s.respond r).owns = s.owns := rfl
@[simp] theorem State.respond_wire : (s.respond r).wire = s.wire := rfl
@[simp] theorem State.respond_refused : (s.respond r).refused = s.refused := rfl
@[simp] theorem State.respond_inst : (s.respond r).inst = s.inst := rfl
@[simp] theorem State.respond_ticksHz : (s.respond r).ticksHz = s.ticksHz := rfl
@[simp] theorem State.respond_draws : (s.respond r).draws = s.draws := rfl
@[simp] theorem State.respond_inputs : (s.respond r).inputs = s.inputs := rfl
@[simp] theorem State.respond_results : (s.respond r).results = s.results ++ [r] := rfl
@[simp] theorem State.respond_refusals : (s.respond r).refusals = s.refusals := rfl

end respond

section markRefused

/-! The mark of a refusal (R185). -/
variable (s : State) (why : RefuseReason)

@[simp] theorem State.markRefused_phase : (s.markRefused why).phase = s.phase := rfl
@[simp] theorem State.markRefused_div : (s.markRefused why).div = s.div := rfl
@[simp] theorem State.markRefused_f : (s.markRefused why).f = s.f := rfl
@[simp] theorem State.markRefused_t0h : (s.markRefused why).t0h = s.t0h := rfl
@[simp] theorem State.markRefused_t0l : (s.markRefused why).t0l = s.t0l := rfl
@[simp] theorem State.markRefused_t1h : (s.markRefused why).t1h = s.t1h := rfl
@[simp] theorem State.markRefused_t1l : (s.markRefused why).t1l = s.t1l := rfl
@[simp] theorem State.markRefused_train : (s.markRefused why).train = s.train := rfl
@[simp] theorem State.markRefused_owns : (s.markRefused why).owns = s.owns := rfl
@[simp] theorem State.markRefused_wire : (s.markRefused why).wire = s.wire := rfl
@[simp] theorem State.markRefused_refused : (s.markRefused why).refused = true := rfl
@[simp] theorem State.markRefused_inst : (s.markRefused why).inst = s.inst := rfl
@[simp] theorem State.markRefused_ticksHz : (s.markRefused why).ticksHz = s.ticksHz := rfl
@[simp] theorem State.markRefused_draws : (s.markRefused why).draws = s.draws := rfl
@[simp] theorem State.markRefused_inputs : (s.markRefused why).inputs = s.inputs := rfl
@[simp] theorem State.markRefused_results : (s.markRefused why).results = s.results := rfl
@[simp] theorem State.markRefused_refusals : (s.markRefused why).refusals = s.refusals ++ [why] := rfl

end markRefused

section finishPixel

/-! Completion of `SET_PIXEL` (R147). -/
variable (s : State)

@[simp] theorem State.finishPixel_phase : s.finishPixel.phase = .idle := rfl
@[simp] theorem State.finishPixel_div : s.finishPixel.div = s.div := rfl
@[simp] theorem State.finishPixel_f : s.finishPixel.f = s.f := rfl
@[simp] theorem State.finishPixel_t0h : s.finishPixel.t0h = s.t0h := rfl
@[simp] theorem State.finishPixel_t0l : s.finishPixel.t0l = s.t0l := rfl
@[simp] theorem State.finishPixel_t1h : s.finishPixel.t1h = s.t1h := rfl
@[simp] theorem State.finishPixel_t1l : s.finishPixel.t1l = s.t1l := rfl
@[simp] theorem State.finishPixel_train : s.finishPixel.train = emptyBuffer := rfl
@[simp] theorem State.finishPixel_owns : s.finishPixel.owns = s.owns := rfl
@[simp] theorem State.finishPixel_wire : s.finishPixel.wire = s.wire := rfl
@[simp] theorem State.finishPixel_refused : s.finishPixel.refused = s.refused := rfl
@[simp] theorem State.finishPixel_inst : s.finishPixel.inst = s.inst := rfl
@[simp] theorem State.finishPixel_ticksHz : s.finishPixel.ticksHz = s.ticksHz := rfl
@[simp] theorem State.finishPixel_draws : s.finishPixel.draws = s.draws := rfl
@[simp] theorem State.finishPixel_inputs : s.finishPixel.inputs = s.inputs := rfl
@[simp] theorem State.finishPixel_results : s.finishPixel.results = s.results := rfl
@[simp] theorem State.finishPixel_refusals : s.finishPixel.refusals = s.refusals := rfl

end finishPixel

section setDraws

/-! The draws are set up (R10). -/
variable (s : State) (d : Draws)

@[simp] theorem State.setDraws_phase : (s.setDraws d).phase = s.phase := rfl
@[simp] theorem State.setDraws_div : (s.setDraws d).div = s.div := rfl
@[simp] theorem State.setDraws_f : (s.setDraws d).f = s.f := rfl
@[simp] theorem State.setDraws_t0h : (s.setDraws d).t0h = s.t0h := rfl
@[simp] theorem State.setDraws_t0l : (s.setDraws d).t0l = s.t0l := rfl
@[simp] theorem State.setDraws_t1h : (s.setDraws d).t1h = s.t1h := rfl
@[simp] theorem State.setDraws_t1l : (s.setDraws d).t1l = s.t1l := rfl
@[simp] theorem State.setDraws_train : (s.setDraws d).train = s.train := rfl
@[simp] theorem State.setDraws_owns : (s.setDraws d).owns = s.owns := rfl
@[simp] theorem State.setDraws_wire : (s.setDraws d).wire = s.wire := rfl
@[simp] theorem State.setDraws_refused : (s.setDraws d).refused = s.refused := rfl
@[simp] theorem State.setDraws_inst : (s.setDraws d).inst = s.inst := rfl
@[simp] theorem State.setDraws_ticksHz : (s.setDraws d).ticksHz = s.ticksHz := rfl
@[simp] theorem State.setDraws_draws : (s.setDraws d).draws = d := rfl
@[simp] theorem State.setDraws_inputs : (s.setDraws d).inputs = s.inputs := rfl
@[simp] theorem State.setDraws_results : (s.setDraws d).results = s.results := rfl
@[simp] theorem State.setDraws_refusals : (s.setDraws d).refusals = s.refusals := rfl

end setDraws

section setTicksHz

/-! The clock subsystem's report changes (R5). -/
variable (s : State) (hz : Nat)

@[simp] theorem State.setTicksHz_phase : (s.setTicksHz hz).phase = s.phase := rfl
@[simp] theorem State.setTicksHz_div : (s.setTicksHz hz).div = s.div := rfl
@[simp] theorem State.setTicksHz_f : (s.setTicksHz hz).f = s.f := rfl
@[simp] theorem State.setTicksHz_t0h : (s.setTicksHz hz).t0h = s.t0h := rfl
@[simp] theorem State.setTicksHz_t0l : (s.setTicksHz hz).t0l = s.t0l := rfl
@[simp] theorem State.setTicksHz_t1h : (s.setTicksHz hz).t1h = s.t1h := rfl
@[simp] theorem State.setTicksHz_t1l : (s.setTicksHz hz).t1l = s.t1l := rfl
@[simp] theorem State.setTicksHz_train : (s.setTicksHz hz).train = s.train := rfl
@[simp] theorem State.setTicksHz_owns : (s.setTicksHz hz).owns = s.owns := rfl
@[simp] theorem State.setTicksHz_wire : (s.setTicksHz hz).wire = s.wire := rfl
@[simp] theorem State.setTicksHz_refused : (s.setTicksHz hz).refused = s.refused := rfl
@[simp] theorem State.setTicksHz_inst : (s.setTicksHz hz).inst = s.inst := rfl
@[simp] theorem State.setTicksHz_ticksHz : (s.setTicksHz hz).ticksHz = hz := rfl
@[simp] theorem State.setTicksHz_draws : (s.setTicksHz hz).draws = s.draws := rfl
@[simp] theorem State.setTicksHz_inputs : (s.setTicksHz hz).inputs = s.inputs := rfl
@[simp] theorem State.setTicksHz_results : (s.setTicksHz hz).results = s.results := rfl
@[simp] theorem State.setTicksHz_refusals : (s.setTicksHz hz).refusals = s.refusals := rfl

end setTicksHz

section setInputs

/-! The host's events. -/
variable (s : State) (es : List HostEvent)

@[simp] theorem State.setInputs_phase : (s.setInputs es).phase = s.phase := rfl
@[simp] theorem State.setInputs_div : (s.setInputs es).div = s.div := rfl
@[simp] theorem State.setInputs_f : (s.setInputs es).f = s.f := rfl
@[simp] theorem State.setInputs_t0h : (s.setInputs es).t0h = s.t0h := rfl
@[simp] theorem State.setInputs_t0l : (s.setInputs es).t0l = s.t0l := rfl
@[simp] theorem State.setInputs_t1h : (s.setInputs es).t1h = s.t1h := rfl
@[simp] theorem State.setInputs_t1l : (s.setInputs es).t1l = s.t1l := rfl
@[simp] theorem State.setInputs_train : (s.setInputs es).train = s.train := rfl
@[simp] theorem State.setInputs_owns : (s.setInputs es).owns = s.owns := rfl
@[simp] theorem State.setInputs_wire : (s.setInputs es).wire = s.wire := rfl
@[simp] theorem State.setInputs_refused : (s.setInputs es).refused = s.refused := rfl
@[simp] theorem State.setInputs_inst : (s.setInputs es).inst = s.inst := rfl
@[simp] theorem State.setInputs_ticksHz : (s.setInputs es).ticksHz = s.ticksHz := rfl
@[simp] theorem State.setInputs_draws : (s.setInputs es).draws = s.draws := rfl
@[simp] theorem State.setInputs_inputs : (s.setInputs es).inputs = es := rfl
@[simp] theorem State.setInputs_results : (s.setInputs es).results = s.results := rfl
@[simp] theorem State.setInputs_refusals : (s.setInputs es).refusals = s.refusals := rfl

end setInputs

section constructed

/-! What a successful `NEW` leaves before its response (R117). -/
variable (s : State)

@[simp] theorem State.constructed_phase : s.constructed.phase = .idle := rfl
@[simp] theorem State.constructed_div : s.constructed.div = some 2 := rfl
@[simp] theorem State.constructed_f : s.constructed.f = some s.ticksHz := rfl
@[simp] theorem State.constructed_t0h : s.constructed.t0h = some (mkPulse .high 350 s.ticksHz) := rfl
@[simp] theorem State.constructed_t0l : s.constructed.t0l = some (mkPulse .low 800 s.ticksHz) := rfl
@[simp] theorem State.constructed_t1h : s.constructed.t1h = some (mkPulse .high 700 s.ticksHz) := rfl
@[simp] theorem State.constructed_t1l : s.constructed.t1l = some (mkPulse .low 600 s.ticksHz) := rfl
@[simp] theorem State.constructed_train : s.constructed.train = s.train := rfl
@[simp] theorem State.constructed_owns : s.constructed.owns = true := rfl
@[simp] theorem State.constructed_wire : s.constructed.wire = s.wire ++ [.sent resetTrain] := rfl
@[simp] theorem State.constructed_refused : s.constructed.refused = s.refused := rfl
@[simp] theorem State.constructed_inst : s.constructed.inst = s.inst := rfl
@[simp] theorem State.constructed_ticksHz : s.constructed.ticksHz = s.ticksHz := rfl
@[simp] theorem State.constructed_draws : s.constructed.draws = s.draws := rfl
@[simp] theorem State.constructed_inputs : s.constructed.inputs = s.inputs := rfl
@[simp] theorem State.constructed_results : s.constructed.results = s.results := rfl
@[simp] theorem State.constructed_refusals : s.constructed.refusals = s.refusals := rfl

end constructed

section afterPixel

/-! What `SET_PIXEL` leaves before its response (R147). -/
variable (s : State) (e : WireEvent)

@[simp] theorem State.afterPixel_phase : (s.afterPixel e).phase = .idle := rfl
@[simp] theorem State.afterPixel_div : (s.afterPixel e).div = s.div := rfl
@[simp] theorem State.afterPixel_f : (s.afterPixel e).f = s.f := rfl
@[simp] theorem State.afterPixel_t0h : (s.afterPixel e).t0h = s.t0h := rfl
@[simp] theorem State.afterPixel_t0l : (s.afterPixel e).t0l = s.t0l := rfl
@[simp] theorem State.afterPixel_t1h : (s.afterPixel e).t1h = s.t1h := rfl
@[simp] theorem State.afterPixel_t1l : (s.afterPixel e).t1l = s.t1l := rfl
@[simp] theorem State.afterPixel_train : (s.afterPixel e).train = emptyBuffer := rfl
@[simp] theorem State.afterPixel_owns : (s.afterPixel e).owns = s.owns := rfl
@[simp] theorem State.afterPixel_wire : (s.afterPixel e).wire = s.wire ++ [e] := rfl
@[simp] theorem State.afterPixel_refused : (s.afterPixel e).refused = s.refused := rfl
@[simp] theorem State.afterPixel_inst : (s.afterPixel e).inst = s.inst := rfl
@[simp] theorem State.afterPixel_ticksHz : (s.afterPixel e).ticksHz = s.ticksHz := rfl
@[simp] theorem State.afterPixel_draws : (s.afterPixel e).draws = s.draws := rfl
@[simp] theorem State.afterPixel_inputs : (s.afterPixel e).inputs = s.inputs := rfl
@[simp] theorem State.afterPixel_results : (s.afterPixel e).results = s.results := rfl
@[simp] theorem State.afterPixel_refusals : (s.afterPixel e).refusals = s.refusals := rfl

end afterPixel

end Sys2Proof.Machine
end

