-- ==== Sys2Proof/Laws/Buffer.lean ====
section
/-! SUPPORT. The train buffer: read after write, what the scan of `SET_PIXEL` leaves in it (41_set_pixel.md R143), and
the train read out of it (20_memory.md R56). -/

namespace Sys2Proof.Machine

@[simp] theorem memRead_memWrite_same (buf : TrainBuffer) (a : Nat) (p : Pair) (h : a < 24) :
    memRead (memWrite buf a p) a = some p := by
  simp [memRead, memWrite, h]

theorem memRead_memWrite_other (buf : TrainBuffer) (a k : Nat) (p : Pair) (h : a ≠ k) :
    memRead (memWrite buf a p) k = memRead buf k := by
  simp [memRead, memWrite, h, Vector.getElem?_setIfInBounds_ne]

@[simp] theorem memRead_emptyBuffer (k : Nat) : memRead emptyBuffer k = none := by
  by_cases h : k < 24 <;> simp [memRead, emptyBuffer, h]

/-- The scan either reads an unwritten register for one of the bits it scans, or selects a pair for each of them and
fills exactly their slots. -/
theorem scanFill_spec (s : State) (v : BitVec 24) :
    ∀ (n : Nat) (buf : TrainBuffer), n ≤ 24 →
      (∃ i < n, s.select (v.getLsbD i) = none ∧ scanFill s v n buf = none) ∨
      (∃ buf', scanFill s v n buf = some buf' ∧
        (∀ i < n, s.select (v.getLsbD i) ≠ none ∧ memRead buf' (23 - i) = s.select (v.getLsbD i)) ∧
        (∀ k, k < 24 - n → memRead buf' k = memRead buf k)) := by
  intro n
  induction n with
  | zero => intro buf _; exact .inr ⟨buf, rfl, by simp, fun _ _ => rfl⟩
  | succ n ih =>
    intro buf hn
    cases hsel : s.select (v.getLsbD n) with
    | none => exact .inl ⟨n, by omega, hsel, by simp [scanFill, hsel]⟩
    | some p =>
      have hstep : scanFill s v (n + 1) buf = scanFill s v n (memWrite buf (23 - n) p) := by
        simp [scanFill, hsel, nBits]
      rw [hstep]
      rcases ih (memWrite buf (23 - n) p) (by omega) with ⟨i, hi, h1, h2⟩ | ⟨buf', h1, h2, h3⟩
      · exact .inl ⟨i, by omega, h1, h2⟩
      · refine .inr ⟨buf', h1, fun i hi => ?_, fun k hk => ?_⟩
        · by_cases hin : i = n
          · subst hin
            exact ⟨by simp [hsel], by rw [h3 _ (by omega), memRead_memWrite_same _ _ _ (by omega), hsel]⟩
          · exact h2 i (by omega)
        · rw [h3 k (by omega), memRead_memWrite_other _ _ _ _ (by omega)]

/-- Slots that all hold a pair read out as those pairs' pulses. -/
theorem readSlots_spec (buf : TrainBuffer) (g : Nat → Pair) :
    ∀ ks : List Nat, (∀ k ∈ ks, memRead buf k = some (g k)) →
      readSlots buf ks = some (ks.flatMap fun k => (g k).pulses) := by
  intro ks
  induction ks with
  | nil => intro _; rfl
  | cons k ks ih =>
    intro h
    have h1 := h k (by simp)
    have h2 := ih fun j hj => h j (by simp [hj])
    simp [readSlots, h1, h2]

/-- When both pairs can be read, the scan fills the buffer and the train read out of it is the pixel train
(41_set_pixel.md R143, 20_memory.md R56). -/
theorem scanFill_assemble (s : State) (v : BitVec 24) (buf : TrainBuffer) (p0 p1 : Pair)
    (h0 : s.select false = some p0) (h1 : s.select true = some p1) :
    ∃ buf', scanFill s v nBits buf = some buf' ∧ assembleTrain buf' = some (pixelTrain p0 p1 v) := by
  have hsel : ∀ b, s.select b = some (if b then p1 else p0) := by
    intro b; cases b <;> simp [h0, h1]
  rcases scanFill_spec s v 24 buf le_rfl with ⟨i, _, hi, _⟩ | ⟨buf', h, h2, _⟩
  · simp [hsel] at hi
  · refine ⟨buf', h, ?_⟩
    apply readSlots_spec buf' fun k => if v.getLsbD (nBits - 1 - k) then p1 else p0
    intro k hk
    have hk : k < 24 := by simpa [nBits] using hk
    have := (h2 (23 - k) (by omega)).2
    rw [hsel, show 23 - (23 - k) = k by omega] at this
    exact this

end Sys2Proof.Machine
end

