-- ==== Sys2Proof/Laws/Operands.lean ====
section
/-! SUPPORT. Small facts about the conversion to ticks (30_encoding.md R89, R90) and the packed value (R93). -/

namespace Sys2Proof.Machine

/-- The conversion is floor division: its two bounds. -/
theorem ticks_bounds (ns f : Nat) :
    ticks ns f * 1000000000 ≤ ns * f + 500000000 ∧ ns * f + 500000000 < (ticks ns f + 1) * 1000000000 := by
  have h := Nat.div_add_mod (ns * f + 500000000) 1000000000
  have h2 := Nat.mod_lt (ns * f + 500000000) (show 0 < 1000000000 by norm_num)
  simp only [ticks, nsPerS]
  norm_num
  omega

/-- What makes calibration refuse, on the frequency. -/
theorem calibrationZero_eq_false_iff (f : Nat) : calibrationZero f = false ↔ 1428572 ≤ f := by
  have h1 := ticks_bounds 350 f
  have h2 := ticks_bounds 800 f
  have h3 := ticks_bounds 700 f
  have h4 := ticks_bounds 600 f
  simp only [calibrationZero, durations, CalReg.all, List.map, CalReg.calibrated, mkPulse, CalReg.targetNs, t0hNs, t0lNs,
    t1hNs, t1lNs, List.any_cons, List.any_nil, Bool.or_false, Bool.or_eq_false_iff, beq_eq_false_iff_ne]
  omega

/-- What makes calibration overflow: one of the four durations is above `MAX_TICKS`. -/
theorem calibrationOverflows_eq_false_iff (maxTicks : Option Nat) (f : Nat) :
    calibrationOverflows maxTicks f = false ↔
      ∀ m, maxTicks = some m → ticks 350 f ≤ m ∧ ticks 800 f ≤ m ∧ ticks 700 f ≤ m ∧ ticks 600 f ≤ m := by
  cases maxTicks <;>
    simp [calibrationOverflows, durations, CalReg.all, CalReg.calibrated, mkPulse, CalReg.targetNs, t0hNs, t0lNs, t1hNs,
      t1lNs, exceeds]

/-- One bit of the packed value (30_encoding.md R93). -/
theorem getLsbD_pack (r g b : Byte) (i : Nat) (h : i < 24) :
    (pack r g b).getLsbD i =
      if 16 ≤ i then g.getLsbD (i - 16) else if 8 ≤ i then r.getLsbD (i - 8) else b.getLsbD i := by
  have hg : ∀ (x : Byte) j, 8 ≤ j → x.getLsbD j = false := fun x j hj => x.getLsbD_of_ge j hj
  simp only [pack, BitVec.getLsbD_or, BitVec.getLsbD_shiftLeft, BitVec.getLsbD_setWidth]
  by_cases h16 : 16 ≤ i
  · have h1 : i - 16 < 24 := by omega
    have h2 : ¬ i < 16 := by omega
    simp [h, h16, h1, h2, hg r (i - 8) (by omega), hg b i (by omega)]
  · by_cases h8 : 8 ≤ i
    · have h1 : i - 8 < 24 := by omega
      have h2 : ¬ i < 8 := by omega
      have h3 : i < 16 := by omega
      simp [h, h16, h8, h1, h2, h3]
    · have h2 : i < 8 := by omega
      have h3 : i < 16 := by omega
      simp [h, h16, h8, h2, h3]

/-- A pixel train has 48 pulses (30_encoding.md R85). -/
@[simp] theorem pixelTrain_length (p0 p1 : Pair) (v : BitVec 24) : (pixelTrain p0 p1 v).length = 48 := by
  simp [pixelTrain, List.length_flatMap, Pair.pulses, nBits]

end Sys2Proof.Machine
end

