-- ==== Sys2Proof/Laws/Commands.lean ====
section
/-! SUPPORT. Once for each shared operation and each command: everything it can do. -/

namespace Sys2Proof.Machine

/-- `Transmit` appends one event, chosen by the draw (20_memory.md R55). -/
theorem State.transmit_cases (tr : Train) (s : State) :
    (s.draws.txOk = true ∧ s.transmit tr = (s.emit (.sent tr), true)) ∨
    (s.draws.txOk = false ∧ s.transmit tr = (s.emit .unspecified, false)) := by
  cases h : s.draws.txOk <;> simp [State.transmit, h]

theorem abortNew_of_phase (e : HwError) (s t : State) (h : s.unbind = t.unbind) : abortNew e s = abortNew e t := by
  simp [abortNew, h]

/-- Everything `NEW` can do, in the order of its checks (40_construct.md R117). -/
theorem execNew_cases (s : State) :
    (s.phase ≠ .unbound ∧ execNew s = refuse .newWhileBound s) ∨
    (s.phase = .unbound ∧
      ((s.draws.cfgOk = false ∧ execNew s = abortNew .hardwareConfigError s) ∨
       (s.draws.cfgOk = true ∧ s.draws.clkOk = false ∧ execNew s = abortNew .hardwareConfigError s) ∨
       (s.draws.cfgOk = true ∧ s.draws.clkOk = true ∧
        ((calibrationOverflows s.inst.maxTicks s.ticksHz = true ∧ execNew s = abortNew .hardwareConfigError s) ∨
         (calibrationOverflows s.inst.maxTicks s.ticksHz = false ∧ calibrationZero s.ticksHz = true ∧
            execNew s = refuse .zeroTickPulse s) ∨
         (calibrationOverflows s.inst.maxTicks s.ticksHz = false ∧ calibrationZero s.ticksHz = false ∧
            ((s.draws.txOk = false ∧ execNew s = abortNew .transmitError (s.emit .unspecified)) ∨
             (s.draws.txOk = true ∧ execNew s = returnOk s.constructed))))))) := by
  cases hp : s.phase
  · refine .inr ⟨rfl, ?_⟩
    have e : execNew s = newConfigure s s.takeHandles := by simp [execNew, hp]
    rw [e]
    cases hc : s.draws.cfgOk
    · refine .inl ⟨rfl, ?_⟩
      simp only [newConfigure, State.configure, State.takeHandles_draws, hc]
      exact abortNew_of_phase _ _ _ rfl
    refine .inr ?_
    have e2 : newConfigure s s.takeHandles = newReadClock s (s.takeHandles.setDiv clkDiv) := by
      simp [newConfigure, State.configure, hc]
    rw [e2]
    cases hk : s.draws.clkOk
    · refine .inl ⟨rfl, rfl, ?_⟩
      simp only [newReadClock, State.readClock, State.setDiv_draws, State.takeHandles_draws, hk]
      exact abortNew_of_phase _ _ _ rfl
    refine .inr ⟨rfl, rfl, ?_⟩
    have e3 : newReadClock s (s.takeHandles.setDiv clkDiv) =
        newCalibrate s s.ticksHz ((s.takeHandles.setDiv clkDiv).setF s.ticksHz) := by
      simp [newReadClock, State.readClock, hk]
    rw [e3]
    cases ho : calibrationOverflows s.inst.maxTicks s.ticksHz
    · refine .inr ?_
      cases hz : calibrationZero s.ticksHz
      · refine .inr ⟨rfl, rfl, ?_⟩
        cases ht : s.draws.txOk
        · refine .inl ⟨rfl, ?_⟩
          simp only [newCalibrate, State.setF_inst, State.setDiv_inst, State.takeHandles_inst, ho, hz, newTransmitReset,
            State.transmit, State.calibrate_draws, State.setF_draws, State.setDiv_draws, State.takeHandles_draws, ht]
          exact abortNew_of_phase _ _ _ rfl
        · refine .inr ⟨rfl, ?_⟩
          simp [newCalibrate, ho, hz, newTransmitReset, State.transmit, ht, State.constructed]
      · exact .inl ⟨rfl, rfl, by simp [newCalibrate, ho, hz]⟩
    · refine .inl ⟨rfl, ?_⟩
      simp only [newCalibrate, State.setF_inst, State.setDiv_inst, State.takeHandles_inst, ho]
      exact abortNew_of_phase _ _ _ rfl
  · exact .inl ⟨by simp, by simp [execNew, hp]⟩
  · exact .inl ⟨by simp, by simp [execNew, hp]⟩

/-- What `SET_PIXEL` does with a Driver whose registers can be read (41_set_pixel.md R146, R147). -/
theorem execSetPixel_idle (s : State) (r g b : Byte) (p0 p1 : Pair) (hp : s.phase = .idle)
    (h0 : s.select false = some p0) (h1 : s.select true = some p1) :
    execSetPixel r g b s =
      if s.draws.txOk then returnOk (s.afterPixel (.sent (pixelTrain p0 p1 (pack r g b))))
      else raise .transmitError (s.afterPixel .unspecified) := by
  obtain ⟨buf, hb, ha⟩ := scanFill_assemble s (pack r g b) s.train p0 p1 h0 h1
  have e : execSetPixel r g b s = pixelTransmit (pixelTrain p0 p1 (pack r g b)) (s.setTrain buf) := by
    simp [execSetPixel, hp, pixelFill, hb, ha]
  rw [e]
  cases ht : s.draws.txOk <;> simp [pixelTransmit, State.transmit, ht] <;> rfl

/-- Everything `SET_PIXEL` can do (41_set_pixel.md R146): refuse, or complete either way; the train it sends is a list
of pairs selected from the registers. -/
theorem execSetPixel_cases (s : State) (r g b : Byte) :
    (s.phase ≠ .idle ∧ execSetPixel r g b s = refuse .setPixelWithoutDriver s) ∨
    (s.phase = .idle ∧
      ((execSetPixel r g b s = refuse .unwrittenRead s ∧ (s.select true = none ∨ s.select false = none)) ∨
       (∃ tr, s.draws.txOk = true ∧ execSetPixel r g b s = returnOk (s.afterPixel (.sent tr)) ∧
          (∀ p0 p1, s.select false = some p0 → s.select true = some p1 → tr = pixelTrain p0 p1 (pack r g b))) ∨
       (s.draws.txOk = false ∧ execSetPixel r g b s = raise .transmitError (s.afterPixel .unspecified)))) := by
  cases hp : s.phase
  · exact .inl ⟨by simp, by simp [execSetPixel, hp]⟩
  · refine .inr ⟨rfl, ?_⟩
    have e : execSetPixel r g b s = pixelFill (pack r g b) s := by simp [execSetPixel, hp]
    cases hf : scanFill s (pack r g b) nBits s.train with
    | none =>
      refine .inl ⟨by simp [e, pixelFill, hf], ?_⟩
      rcases scanFill_spec s (pack r g b) 24 s.train le_rfl with ⟨i, _, hi, _⟩ | ⟨buf', h, _⟩
      · cases hb : (pack r g b).getLsbD i <;> rw [hb] at hi <;> simp [hi]
      · rw [show (24 : Nat) = nBits from rfl, hf] at h; simp at h
    | some buf =>
      have hr : ∃ tr, assembleTrain buf = some tr ∧ (∀ p0 p1, s.select false = some p0 → s.select true = some p1 →
          tr = pixelTrain p0 p1 (pack r g b)) := by
        rcases scanFill_spec s (pack r g b) 24 s.train le_rfl with ⟨i, _, _, h⟩ | ⟨buf', h, h2, _⟩
        · rw [show (24 : Nat) = nBits from rfl, hf] at h; simp at h
        · rw [show (24 : Nat) = nBits from rfl, hf, Option.some.injEq] at h
          subst h
          refine ⟨(List.range nBits).flatMap fun k =>
              ((s.select ((pack r g b).getLsbD (nBits - 1 - k))).getD ⟨⟨.low, 0⟩, ⟨.low, 0⟩⟩).pulses,
            readSlots_spec buf
              (fun k => (s.select ((pack r g b).getLsbD (nBits - 1 - k))).getD ⟨⟨.low, 0⟩, ⟨.low, 0⟩⟩) _
              fun k hk => ?_, fun p0 p1 h0 h1 => ?_⟩
          · have hk : k < 24 := by simpa [nBits] using hk
            obtain ⟨h3, h4⟩ := h2 (23 - k) (by omega)
            rw [show 23 - (23 - k) = k by omega] at h4
            obtain ⟨p, hp⟩ := Option.ne_none_iff_exists'.mp h3
            simp [nBits, h4, hp]
          · rw [pixelTrain]
            congr 1
            funext k
            cases (pack r g b).getLsbD (nBits - 1 - k) <;> simp [h0, h1]
      obtain ⟨tr, htr, hp01⟩ := hr
      have e2 : execSetPixel r g b s = pixelTransmit tr (s.setTrain buf) := by simp [e, pixelFill, hf, htr]
      cases ht : s.draws.txOk
      · exact .inr (.inr ⟨rfl, by simp [e2, pixelTransmit, State.transmit, ht]; rfl⟩)
      · exact .inr (.inl ⟨tr, rfl, by simp [e2, pixelTransmit, State.transmit, ht]; rfl, hp01⟩)
  · exact .inl ⟨by simp, by simp [execSetPixel, hp]⟩

/-- The block's invariant only speaks of its own fields: replacing the host's events or the draws keeps it. -/
theorem State.Inv.setInputs {s : State} (h : s.Inv) (es : List HostEvent) : (s.setInputs es).Inv :=
  ⟨h.quiet, h.buffer, fun hp => ⟨(h.unbound hp).div, (h.unbound hp).f, (h.unbound hp).t0h, (h.unbound hp).t0l,
    (h.unbound hp).t1h, (h.unbound hp).t1l, (h.unbound hp).owns⟩,
   fun hp => ⟨(h.idle hp).div, (h.idle hp).f, (h.idle hp).calibrated, (h.idle hp).fits, (h.idle hp).nonzero,
    (h.idle hp).owns⟩, h.marked, h.wire⟩

end Sys2Proof.Machine
end

