-- ==== Sys2Proof/Laws/Decode.lean ====
section
/-! SUPPORT. The rows of the command map in terms of the fields of 30_encoding.md R87. -/

namespace Sys2Proof

/-- The row `NEW` fixes every bit, so it selects one word. -/
theorem selectsRow_new_iff (w : Word) : selectsRow newMask newMatch w = true ↔ w = 0x01000000#32 := by
  have h : w &&& newMask = w := by
    simpa [newMask] using BitVec.and_allOnes (x := w)
  simp [selectsRow, h, newMatch]

/-- One bit of the row `SET_PIXEL`'s mask: the bits of `op`. -/
theorem setPixelMask_bit : ∀ i : Fin 32, setPixelMask.getLsbD i = decide (24 ≤ i.val) := by decide

theorem setPixelMatch_bit : ∀ i : Fin 32, setPixelMatch.getLsbD i = decide (i.val = 25) := by decide

/-- The row `SET_PIXEL` selects exactly the words whose `op` is 0x02. -/
theorem selectsRow_setPixel_iff (w : Word) :
    selectsRow setPixelMask setPixelMatch w = true ↔ opField w = 0x02#8 := by
  simp only [selectsRow, beq_iff_eq]
  constructor
  · intro h
    apply BitVec.eq_of_getLsbD_eq
    intro i hi
    have hb := congrArg (fun x => x.getLsbD (24 + i)) h
    have h1 := setPixelMask_bit ⟨24 + i, by omega⟩
    have h2 := setPixelMatch_bit ⟨24 + i, by omega⟩
    simp only [BitVec.getLsbD_and] at hb
    simp only [] at h1 h2
    rw [h1, h2] at hb
    simp only [opField, BitVec.getLsbD_extractLsb', hi, decide_true, Bool.true_and]
    have h3 : (0x02#8).getLsbD i = decide (i = 1) := by
      have : ∀ j : Fin 8, (0x02#8).getLsbD j = decide (j.val = 1) := by decide
      exact this ⟨i, hi⟩
    have h4 : (24 + i = 25) = (i = 1) := propext (by omega)
    rw [h3]
    simpa [h4] using hb
  · intro h
    apply BitVec.eq_of_getLsbD_eq
    intro i hi
    have h1 := setPixelMask_bit ⟨i, hi⟩
    have h2 := setPixelMatch_bit ⟨i, hi⟩
    simp only [] at h1 h2
    rw [BitVec.getLsbD_and, h1, h2]
    by_cases h24 : 24 ≤ i
    · have hb := congrArg (fun x => x.getLsbD (i - 24)) h
      have h3 : (0x02#8).getLsbD (i - 24) = decide (i - 24 = 1) := by
        have : ∀ j : Fin 8, (0x02#8).getLsbD j = decide (j.val = 1) := by decide
        exact this ⟨i - 24, by omega⟩
      simp only [opField, BitVec.getLsbD_extractLsb', h3] at hb
      have h4 : 24 + (i - 24) = i := by omega
      rw [h4] at hb
      simp only [show i - 24 < 8 by omega, decide_true, Bool.true_and] at hb
      rw [hb]
      simp only [h24, decide_true, Bool.and_true]
      congr 1
      exact propext ⟨fun _ => by omega, fun _ => by omega⟩
    · have : ¬ i = 25 := by omega
      simp [h24, this]

/-- The fields of an encoded `SET_PIXEL` (30_encoding.md R87, format C). -/
theorem fields_encode_setPixel (r g b : Byte) :
    opField (encode (.setPixel r g b)) = 0x02#8 ∧ redField (encode (.setPixel r g b)) = r ∧
    greenField (encode (.setPixel r g b)) = g ∧ blueField (encode (.setPixel r g b)) = b := by
  refine ⟨?_, ?_, ?_, ?_⟩ <;>
  · apply BitVec.eq_of_getLsbD_eq
    intro i hi
    simp only [opField, redField, greenField, blueField, encode, BitVec.getLsbD_extractLsb', BitVec.getLsbD_append, hi,
      decide_true, Bool.true_and]
    repeat' split
    all_goals first | omega | (congr 1; omega)

end Sys2Proof
end

