-- ==== Sys2Proof/Laws/PerInstr.lean ====
section
/-! SUPPORT. Family `OwnRow`: the word of a command selects its own row of the command map and no other
(30_encoding.md R94), one lemma for each command. -/

namespace Sys2Proof.Laws.OwnRow

/-- The word of `i` selects the row of `i`, and not the other row. -/
def Statement : Instr → Prop
  | .new => selectsRow newMask newMatch (encode .new) = true ∧ selectsRow setPixelMask setPixelMatch (encode .new) = false
  | .setPixel r g b =>
    selectsRow setPixelMask setPixelMatch (encode (.setPixel r g b)) = true ∧
    selectsRow newMask newMatch (encode (.setPixel r g b)) = false

theorem new : Statement .new := by
  unfold Statement
  decide

theorem setPixel (r g b : Byte) : Statement (.setPixel r g b) := by
  have hop := (fields_encode_setPixel r g b).1
  refine ⟨(selectsRow_setPixel_iff _).mpr hop, ?_⟩
  rw [Bool.eq_false_iff, ne_eq, selectsRow_new_iff]
  intro h
  rw [h] at hop
  exact absurd hop (by decide)

end Sys2Proof.Laws.OwnRow
end

