-- ==== Sys2Proof/Laws/Step.lean ====
section
/-! SUPPORT. Once for a command and once for a step: everything it can do, as named updates of the state. -/

namespace Sys2Proof.Machine

/-- The ways a command ends (00_scope.md R11), as updates of the state it began in. -/
theorem exec_cases (i : Instr) (s : State) :
    (∃ why, exec i s = .next (s.markRefused why)) ∨
    (i = .new ∧ s.phase = .unbound ∧ exec i s = .next (s.unbind.respond (.err .hardwareConfigError))) ∨
    (i = .new ∧ s.phase = .unbound ∧ s.draws.txOk = false ∧
      exec i s = .next ((s.emit .unspecified).unbind.respond (.err .transmitError))) ∨
    (i = .new ∧ s.phase = .unbound ∧ calibrationOverflows s.inst.maxTicks s.ticksHz = false ∧
      calibrationZero s.ticksHz = false ∧ exec i s = .next (s.constructed.respond .ok)) ∨
    (∃ r g b tr, i = .setPixel r g b ∧ s.phase = .idle ∧ exec i s = .next ((s.afterPixel (.sent tr)).respond .ok) ∧
      (∀ p0 p1, s.select false = some p0 → s.select true = some p1 → tr = pixelTrain p0 p1 (pack r g b))) ∨
    (∃ r g b, i = .setPixel r g b ∧ s.phase = .idle ∧
      exec i s = .next ((s.afterPixel .unspecified).respond (.err .transmitError))) := by
  cases i with
  | new =>
    rcases execNew_cases s with ⟨_, h⟩ | ⟨hp, ⟨_, h⟩ | ⟨_, _, h⟩ | ⟨_, _, ⟨_, h⟩ | ⟨_, _, h⟩ | ⟨ho, hz, ⟨ht, h⟩ | ⟨_, h⟩⟩⟩⟩
    · exact .inl ⟨_, h⟩
    · exact .inr (.inl ⟨rfl, hp, h⟩)
    · exact .inr (.inl ⟨rfl, hp, h⟩)
    · exact .inr (.inl ⟨rfl, hp, h⟩)
    · exact .inl ⟨_, h⟩
    · exact .inr (.inr (.inl ⟨rfl, hp, ht, h⟩))
    · exact .inr (.inr (.inr (.inl ⟨rfl, hp, ho, hz, h⟩)))
  | setPixel r g b =>
    rcases execSetPixel_cases s r g b with ⟨_, h⟩ | ⟨hp, ⟨h, _⟩ | ⟨tr, _, h, htr⟩ | ⟨_, h⟩⟩
    · exact .inl ⟨_, h⟩
    · exact .inl ⟨_, h⟩
    · exact .inr (.inr (.inr (.inr (.inl ⟨r, g, b, tr, rfl, hp, h, htr⟩))))
    · exact .inr (.inr (.inr (.inr (.inr ⟨r, g, b, rfl, hp, h⟩))))

/-- A block with nothing offered waits. -/
theorem step_of_no_inputs (s : State) (h : s.inputs = []) : step s = .next s := by
  simp [step, takeEvent, h]

/-- A step is the next host event, taken out of the host's list. -/
theorem step_of_inputs (s : State) (e : HostEvent) (rest : List HostEvent) (h : s.inputs = e :: rest) :
    step s = handleEvent e (s.setInputs rest) := by
  simp [step, takeEvent, h]

/-- Everything one host event can do. -/
theorem handleEvent_cases (e : HostEvent) (s : State) :
    ((∀ w d, e ≠ .command w d) ∧ ∃ why, handleEvent e s = .next (s.markRefused why)) ∨
    (∃ w d i, e = .command w d ∧ s.phase ≠ .transmitting ∧ decode w = .ok i ∧
      handleEvent e s = exec i (s.setDraws d)) ∨
    (∃ w d why, e = .command w d ∧ handleEvent e s = .next ((s.setDraws d).markRefused why)) ∨
    (e = .release ∧ s.phase = .idle ∧ handleEvent e s = .next s.unbind) ∨
    (∃ hz, e = .tickRate hz ∧ s.phase = .unbound ∧ handleEvent e s = .next (s.setTicksHz hz)) ∨
    (e ≠ .release ∧ handleEvent e s = .next s) := by
  cases e with
  | command w d =>
    cases hb : s.phase
    case transmitting => exact .inr (.inr (.inl ⟨w, d, .concurrentCommand, rfl, by simp [handleEvent, offerCommand, State.busy, hb, refuse]⟩))
    all_goals
      cases hd : decode w with
      | ok i => exact .inr (.inl ⟨w, d, i, rfl, by simp, hd, by simp [handleEvent, offerCommand, State.busy, hb, hd]⟩)
      | error x => exact .inr (.inr (.inl ⟨w, d, .reservedCommand, rfl, by simp [handleEvent, offerCommand, State.busy, hb, hd, refuse]⟩))
  | overlapped w => exact .inl ⟨by simp, _, rfl⟩
  | release =>
    cases hb : s.phase
    case idle => exact .inr (.inr (.inr (.inl ⟨rfl, rfl, by simp [handleEvent, execRelease, hb]⟩)))
    all_goals exact .inl ⟨by simp, .releaseWithoutDriver, by simp [handleEvent, execRelease, hb, refuse]⟩
  | tickRate hz =>
    cases hb : s.phase
    case unbound => exact .inr (.inr (.inr (.inr (.inl ⟨hz, rfl, rfl, by simp [handleEvent, clockChange, hb]⟩))))
    all_goals
      by_cases hh : hz = s.ticksHz
      · exact .inr (.inr (.inr (.inr (.inr ⟨by simp, by simp [handleEvent, clockChange, hb, hh]⟩))))
      · exact .inl ⟨by simp, .foreignAccess, by simp [handleEvent, clockChange, hb, hh, refuse]⟩
  | foreignPin p =>
    by_cases hh : p = s.inst.pin
    · exact .inl ⟨by simp, .foreignAccess, by simp [handleEvent, pinDriven, hh, refuse]⟩
    · exact .inr (.inr (.inr (.inr (.inr ⟨by simp, by simp [handleEvent, pinDriven, hh]⟩))))
  | foreignChannel c =>
    by_cases hh : c = s.inst.channel
    · exact .inl ⟨by simp, .foreignAccess, by simp [handleEvent, channelUsed, hh, refuse]⟩
    · exact .inr (.inr (.inr (.inr (.inr ⟨by simp, by simp [handleEvent, channelUsed, hh]⟩))))

/-- What a command run from the state `s` can leave, by command. -/
def CommandEffect (i : Instr) (s t : State) : Prop :=
  (∃ why, t = s.markRefused why) ∨
  (i = .new ∧ s.phase = .unbound ∧
    (t = s.unbind.respond (.err .hardwareConfigError) ∨
     t = (s.emit .unspecified).unbind.respond (.err .transmitError) ∨
     (calibrationOverflows s.inst.maxTicks s.ticksHz = false ∧ calibrationZero s.ticksHz = false ∧
       t = s.constructed.respond .ok))) ∨
  (∃ r g b, i = .setPixel r g b ∧ s.phase = .idle ∧
    ((∃ tr, (∀ p0 p1, s.select false = some p0 → s.select true = some p1 → tr = pixelTrain p0 p1 (pack r g b)) ∧
        t = (s.afterPixel (.sent tr)).respond .ok) ∨
     t = (s.afterPixel .unspecified).respond (.err .transmitError)))

/-- A command that answers a next state has one of its effects. -/
theorem commandEffect_of_exec {i : Instr} {s t : State} (h : exec i s = .next t) : CommandEffect i s t := by
  have inj : ∀ {a b : State}, (Host.Outcome.next a : Answer) = .next b → b = a := fun h => by cases h; rfl
  rcases exec_cases i s with ⟨why, e⟩ | ⟨hi, hp, e⟩ | ⟨hi, hp, _, e⟩ | ⟨hi, hp, ho, hz, e⟩ |
      ⟨r, g, b, tr, hi, hp, e, htr⟩ | ⟨r, g, b, hi, hp, e⟩ <;> rw [e] at h <;> cases inj h
  · exact .inl ⟨why, rfl⟩
  · exact .inr (.inl ⟨hi, hp, .inl rfl⟩)
  · exact .inr (.inl ⟨hi, hp, .inr (.inl rfl)⟩)
  · exact .inr (.inl ⟨hi, hp, .inr (.inr ⟨ho, hz, rfl⟩)⟩)
  · exact .inr (.inr ⟨r, g, b, hi, hp, .inl ⟨tr, htr, rfl⟩⟩)
  · exact .inr (.inr ⟨r, g, b, hi, hp, .inr rfl⟩)

/-- Everything a step can do: wait, refuse, take note of an event that is nothing to the block, destroy the Driver,
change the reported frequency, or run a command. -/
theorem step_cases {s t : State} (h : step s = .next t) :
    (s.inputs = [] ∧ t = s) ∨
    ∃ e rest, s.inputs = e :: rest ∧
      (((∀ w d, e ≠ .command w d) ∧ ∃ why, t = (s.setInputs rest).markRefused why) ∨
       (e ≠ .release ∧ t = s.setInputs rest) ∨
       (e = .release ∧ s.phase = .idle ∧ t = (s.setInputs rest).unbind) ∨
       (∃ hz, e = .tickRate hz ∧ s.phase = .unbound ∧ t = (s.setInputs rest).setTicksHz hz) ∨
       (∃ w d, e = .command w d ∧
         ((∃ why, t = ((s.setInputs rest).setDraws d).markRefused why) ∨
          ∃ i, decode w = .ok i ∧ s.phase ≠ .transmitting ∧
            CommandEffect i ((s.setInputs rest).setDraws d) t))) := by
  have inj : ∀ {a b : State}, (Host.Outcome.next a : Answer) = .next b → b = a := fun h => by cases h; rfl
  cases hi : s.inputs with
  | nil => rw [step_of_no_inputs s hi] at h; exact .inl ⟨rfl, inj h⟩
  | cons e rest =>
    refine .inr ⟨e, rest, rfl, ?_⟩
    rw [step_of_inputs s e rest hi] at h
    rcases handleEvent_cases e (s.setInputs rest) with ⟨hne, why, x⟩ | ⟨w, d, i, he, hp, hd, x⟩ | ⟨w, d, why, he, x⟩ |
        ⟨he, hp, x⟩ | ⟨hz, he, hp, x⟩ | ⟨he, x⟩ <;> rw [x] at h
    · exact .inl ⟨hne, why, inj h⟩
    · exact .inr (.inr (.inr (.inr ⟨w, d, he, .inr ⟨i, hd, hp, commandEffect_of_exec h⟩⟩)))
    · exact .inr (.inr (.inr (.inr ⟨w, d, he, .inl ⟨why, inj h⟩⟩)))
    · exact .inr (.inr (.inl ⟨he, hp, inj h⟩))
    · exact .inr (.inr (.inr (.inl ⟨hz, he, hp, inj h⟩)))
    · exact .inr (.inl ⟨he, inj h⟩)

/-- A run of any machine goes on from the state its first step answers. -/
theorem core_run_succ (M : Host.Core) (n : Nat) (s s' : M.State) (h : M.step s = .next s') :
    M.run (n + 1) s = M.run n s' := by
  simp [Host.Core.run, h]

/-- A run of the block goes on from the state its first step answers. -/
theorem run_succ {s s' : State} (n : Nat) (h : step s = .next s') :
    Host.Core.run core (n + 1) s = Host.Core.run core n s' :=
  core_run_succ core n s s' h

end Sys2Proof.Machine
end

