-- ==== Sys2Proof/Machine/Text.lean ====
section
/-! DEFINITION. The text of command sequences (30_encoding.md R97): one command a line, `;` starts a comment, the
draws a line runs under in brackets, a draw not written true. Text in, host events out (log 27). -/

namespace Sys2Proof.Machine

/-- A piece of a line. -/
inductive Token where
  | word (cs : List Char)
  | comma
  | open
  | close
  deriving DecidableEq, Repr

/-- The word read so far, as a token if it is not empty. -/
def flushWord (acc : List Char) : List Token := if acc = [] then [] else [.word acc]

/-- The tokens of a line; a comment ends it. DESIGN CHOICE (log 27): R97 names no blanks; the space, the tab and the
carriage return are blanks, anywhere in a line. -/
def lexLine : List Char → List Char → List Token
  | [], acc => flushWord acc
  | c :: cs, acc =>
    if c = ';' then flushWord acc
    else if c = ' ' ∨ c = '\t' ∨ c = '\r' then flushWord acc ++ lexLine cs []
    else if c = ',' then flushWord acc ++ .comma :: lexLine cs []
    else if c = '[' then flushWord acc ++ .open :: lexLine cs []
    else if c = ']' then flushWord acc ++ .close :: lexLine cs []
    else lexLine cs (acc ++ [c])

/-- The lines of a text; a line feed ends one (DESIGN CHOICE, log 27). -/
def splitLines : List Char → List Char → List (List Char)
  | [], acc => [acc]
  | c :: cs, acc => if c = '\n' then acc :: splitLines cs [] else splitLines cs (acc ++ [c])

/-- The value of a hexadecimal digit. -/
def digitValue (c : Char) : Nat :=
  if '0' ≤ c ∧ c ≤ '9' then c.toNat - 48
  else if 'a' ≤ c ∧ c ≤ 'f' then c.toNat - 87
  else if 'A' ≤ c ∧ c ≤ 'F' then c.toNat - 55
  else 16

/-- Digits of a base, most significant first. -/
def parseDigits (base : Nat) : List Char → Nat → Option Nat
  | [], n => some n
  | c :: cs, n => if digitValue c < base then parseDigits base cs (base * n + digitValue c) else none

/-- A number, decimal or `0x` hexadecimal (R97). -/
def parseNumber : List Char → Option Nat
  | [] => none
  | '0' :: 'x' :: [] => none
  | '0' :: 'x' :: c :: cs => parseDigits 16 (c :: cs) 0
  | c :: cs => parseDigits 10 (c :: cs) 0

/-- A colour channel, 0 to 255 (R97). -/
def parseChannel (cs : List Char) : Option Byte :=
  match parseNumber cs with
  | some n => if n < 256 then some (BitVec.ofNat 8 n) else none
  | none => none

/-- What a line's brackets say: the tick frequency, if written, and the draws. -/
structure LineDraws where
  hz    : Option Nat
  draws : Draws
  deriving DecidableEq, Repr

/-- One word in the brackets: a draw, a draw negated by `!`, or `f=<number>`. DESIGN CHOICE (log 34): of several words
for the same draw, or several `f=`, in one line's brackets, agreeing or not, the last one counts. -/
def parseDraw (cs : List Char) (d : LineDraws) : Option LineDraws :=
  if cs = ['c', 'f', 'g', '_', 'o', 'k'] then some { d with draws := { d.draws with cfgOk := true } }
  else if cs = ['!', 'c', 'f', 'g', '_', 'o', 'k'] then some { d with draws := { d.draws with cfgOk := false } }
  else if cs = ['c', 'l', 'k', '_', 'o', 'k'] then some { d with draws := { d.draws with clkOk := true } }
  else if cs = ['!', 'c', 'l', 'k', '_', 'o', 'k'] then some { d with draws := { d.draws with clkOk := false } }
  else if cs = ['t', 'x', '_', 'o', 'k'] then some { d with draws := { d.draws with txOk := true } }
  else if cs = ['!', 't', 'x', '_', 'o', 'k'] then some { d with draws := { d.draws with txOk := false } }
  else
    match cs with
    | 'f' :: '=' :: ds =>
      match parseNumber ds with
      | some n => some { d with hz := some n }
      | none => none
    | _ => none

/-- The words in the brackets, up to the closing one, which ends the line. -/
def parseDraws : List Token → LineDraws → Option LineDraws
  | [.close], d => some d
  | .word cs :: ts, d =>
    match parseDraw cs d with
    | some d' => parseDraws ts d'
    | none => none
  | .comma :: ts, d => parseDraws ts d
  | _, _ => none

/-- What may follow a command's operands: nothing, or draws in brackets. -/
def parseTail : List Token → Option LineDraws
  | [] => some { hz := none, draws := Draws.allTrue }
  | .open :: ts => parseDraws ts { hz := none, draws := Draws.allTrue }
  | _ => none

/-- The events of a command under its draws: a written frequency is what the clock subsystem reports from then on. -/
def lineEvents (i : Instr) (d : LineDraws) : List HostEvent :=
  match d.hz with
  | some hz => [.tickRate hz, .command (encode i) d.draws]
  | none => [.command (encode i) d.draws]

/-- One line: a command, the event `RELEASE`, or nothing (R97). -/
def parseLine : List Token → Option (List HostEvent)
  | [] => some []
  | .word ['N', 'E', 'W'] :: ts => (parseTail ts).map (lineEvents .new)
  | [.word ['R', 'E', 'L', 'E', 'A', 'S', 'E']] => some [.release]
  | .word ['S', 'E', 'T', '_', 'P', 'I', 'X', 'E', 'L'] :: .word r :: .comma :: .word g :: .comma :: .word b :: ts =>
    match parseChannel r, parseChannel g, parseChannel b, parseTail ts with
    | some r, some g, some b, some d => some (lineEvents (.setPixel r g b) d)
    | _, _, _, _ => none
  | _ => none

/-- The lines of a program, in order; none if one of them is no line of R97. -/
def parseLines : List (List Char) → Option (List HostEvent)
  | [] => some []
  | l :: ls =>
    match parseLine (lexLine l []), parseLines ls with
    | some es, some rest => some (es ++ rest)
    | _, _ => none

/-- The host events a program text stands for (R97). -/
def parseProgram (text : List Char) : Option (List HostEvent) := parseLines (splitLines text [])

end Sys2Proof.Machine
end

