-- ==== Sys2Proof/Tests/Slice0.lean ====
section
/-! SUPPORT. The model's own tests. Expected values come from spec/95_test_vectors.md and the worked examples of the
rules, each named. Then a witness for the hypotheses of each statement of Certificates/Slice0/Obligations.lean. -/

namespace Sys2Proof.Tests

open Sys2Proof.Machine

/-- The next state, if a step answers one. -/
def after : Host.Outcome State Fault Refusal → Option State
  | .next s => some s
  | .fault _ => none
  | .refused _ => none

/-- A Driver at 40 000 000 ticks per second, calibrated as 40_construct.md R121 says, its reset train sent. -/
def idle40 : State :=
  { State.reset with
    phase := .idle, div := some 2, f := some 40000000, t0h := some ⟨.high, 14⟩, t0l := some ⟨.low, 32⟩,
    t1h := some ⟨.high, 28⟩, t1l := some ⟨.low, 24⟩, owns := true, wire := [.sent [⟨.low, 24⟩]], results := [.ok] }

/-- The block before construction, with these draws, tick frequency and `MAX_TICKS`. -/
def unboundWith (d : Draws) (hz : Nat) (maxTicks : Option Nat) : State :=
  { State.reset with draws := d, ticksHz := hz, inst := { State.reset.inst with maxTicks := maxTicks } }

/-- A state whose next events are these. -/
def offered (s : State) (es : List HostEvent) : State := { s with inputs := es }

/-- A state that no run reaches: between steps, yet transmitting. -/
def sending : State := { State.reset with phase := .transmitting }

/-! ## Well-formedness refuses an ill-formed term of each check -/

theorem test_wf_word_refuses_reserved_arg : WellFormed.word 0x01000001#32 = false := by decide
theorem test_wf_word_refuses_reserved_op : WellFormed.word 0x03000000#32 = false := by decide
theorem test_wf_word_accepts : WellFormed.word 0x01000000#32 = true ∧ WellFormed.word 0x02FFFFFF#32 = true := by decide
theorem test_wf_pulse_refuses_zero : Pulse.fits none ⟨.high, 0⟩ = false := by decide
theorem test_wf_pulse_refuses_long : Pulse.fits (some 32767) ⟨.low, 32768⟩ = false := by decide
theorem test_wf_train_refuses_zero : Train.sendable [⟨.high, 1⟩, ⟨.low, 0⟩] = false := by decide
theorem test_wf_alternation_refuses : Train.alternatesFrom .high [⟨.high, 1⟩, ⟨.high, 1⟩] = false := by decide
theorem test_wf_pixel_shape_refuses_reset_train : Train.pixelShaped resetTrain = false := by decide
theorem test_wf_every_colour (r g b : Byte) : (Instr.setPixel r g b).wf = true ∧ Instr.new.wf = true := ⟨rfl, rfl⟩

/-! ## Decoding: words written out bit by bit from 30_encoding.md R87, R94 and 95_test_vectors.md V-E, V-P -/

theorem test_decode_new : decode 0b00000001000000000000000000000000#32 = .ok .new := by decide
theorem test_decode_set_pixel :
    decode 0b00000010000100100011010001010110#32 = .ok (.setPixel 0x12#8 0x34#8 0x56#8) := by decide
theorem test_decode_reserved : decode 0x00000000#32 = .error (.reservedOp 0#8) ∧
    decode 0x01FFFFFF#32 = .error (.reservedArg 0xFFFFFF#24) ∧ decode 0xFF000000#32 = .error (.reservedOp 0xFF#8) := by
  decide
theorem test_decode_table_word : decodeTableWord 32 0x02320000 = some (.setPixel 50#8 0#8 0#8) ∧
    decodeTableWord 32 0x01000001 = none := by decide
theorem test_encode : encode (.setPixel 170#8 85#8 255#8) = 0x02AA55FF#32 ∧ encode .new = 0x01000000#32 := by decide
theorem test_response_codes : responseCode (.err .transmitError) = 2#2 ∧ responseOfCode 3#2 = none := by decide

/-! ## Operands: 95_test_vectors.md V-T, V-P -/

theorem test_ticks_rows : durations 1000000 = [0, 1, 1, 1] ∧ durations 1428572 = [1, 1, 1, 1] ∧
    durations 16000000 = [6, 13, 11, 10] ∧ durations 40958750000 = [14336, 32767, 28671, 24575] := by decide
theorem test_ties : isTie 800 625000 = true ∧ isTie 350 30000000 = true ∧ noTie 40000000 = true ∧
    noTie 10000000 = false := by decide
theorem test_in_tol : inTol 3000000 = true ∧ inTol 3333334 = true ∧ inTol 2000000 = false := by decide
theorem test_pack : pack 0x12#8 0x34#8 0x56#8 = 0x341256#24 ∧ pack 50#8 0#8 0#8 = 0x003200#24 := by decide
theorem test_train_ticks : trainTicks (pixelTrain ⟨⟨.high, 14⟩, ⟨.low, 32⟩⟩ ⟨⟨.high, 28⟩, ⟨.low, 24⟩⟩
    (pack 170#8 85#8 255#8)) = 1200 := by decide
/-- V-S5: the first two pairs, tick by tick. -/
theorem test_expand : expand [⟨.high, 4⟩, ⟨.low, 3⟩, ⟨.high, 2⟩, ⟨.low, 4⟩] =
    [.high, .high, .high, .high, .low, .low, .low, .high, .high, .low, .low, .low, .low] := by decide

/-! ## The commands and RELEASE, one step each -/

/-- R121, V-N row 1: `NEW` as the first command after reset. -/
theorem test_new_from_reset : (after (step (State.reset.withFetchWord 32 0x01000000))).map
    (fun s => (s.phase, s.t0h, s.wire, s.results)) =
    some (.idle, some ⟨.high, 14⟩, [.sent [⟨.low, 24⟩]], [.ok]) := by decide
/-- V-N last row: a duration above `MAX_TICKS`. -/
theorem test_new_overflow : (after (exec .new (unboundWith Draws.allTrue 50000000000 (some 32767)))).map
    (fun s => (s.phase, s.t0h, s.wire, s.results)) =
    some (.unbound, none, [], [.err .hardwareConfigError]) := by decide
set_option maxRecDepth 4000 in
/-- V-S1: the middle of the train of colour (50, 0, 0), slots 8 to 11, and the emptied buffer. -/
theorem test_set_pixel_train : (after (exec (.setPixel 50#8 0#8 0#8) idle40)).map
    (fun s => (s.wire.map (fun e => match e with | .sent tr => (tr.drop 16).take 8 | .unspecified => []), memRead s.train 8)) =
    some ([[], [⟨.high, 14⟩, ⟨.low, 32⟩, ⟨.high, 14⟩, ⟨.low, 32⟩, ⟨.high, 28⟩, ⟨.low, 24⟩, ⟨.high, 28⟩, ⟨.low, 24⟩]],
      none) := by decide
set_option maxRecDepth 4000 in
/-- V-S8: a failed transmission. -/
theorem test_set_pixel_fails : (after (exec (.setPixel 50#8 0#8 0#8) { idle40 with draws := ⟨true, true, false⟩ })).map
    (fun s => (s.phase, s.wire.getLast?, s.lastResult, s.t0h)) =
    some (.idle, some .unspecified, some (.err .transmitError), some ⟨.high, 14⟩) := by decide
/-- P4: `RELEASE` keeps the wire and empties the registers. -/
theorem test_release : (after (step (offered idle40 [.release]))).map (fun s => (s.phase, s.t1h, s.wire, s.owns)) =
    some (.unbound, none, [.sent [⟨.low, 24⟩]], false) := by decide
/-- V-X, P5: `SET_PIXEL` before any `NEW`. -/
theorem test_set_pixel_from_reset : (after (step (State.reset.withFetchWord 32 0x02090909))).map
    (fun s => (s.refused, s.refusals, s.wire, s.results)) = some (true, [.setPixelWithoutDriver], [], []) := by decide

/-! ## Text: 30_encoding.md R97, programs P2 and P4 -/

theorem test_text_draws :
    parseProgram "NEW [f=40000000] ; 0x01\nSET_PIXEL 0, 0x32, 0 [!tx_ok]".toList =
    some [.tickRate 40000000, .command 0x01000000#32 Draws.allTrue, .command 0x02003200#32 ⟨true, true, false⟩] := by
  decide
theorem test_text_release : parseProgram "RELEASE\n".toList = some [.release] := by decide
theorem test_text_refuses : parseProgram "SET_PIXEL 256, 0, 0".toList = none ∧ parseProgram "NEW 1".toList = none := by
  decide

/-! ## Witnesses: states and operands that meet the hypotheses of each statement -/

theorem reset_inv : State.reset.Inv :=
  ⟨by decide, rfl, fun _ => ⟨rfl, rfl, rfl, rfl, rfl, rfl, rfl⟩, fun h => absurd h (by decide), by decide,
    by simp [State.reset]⟩

theorem idle40_inv : idle40.Inv :=
  ⟨by decide, rfl, fun h => absurd h (by decide),
    fun _ => ⟨rfl, rfl, ⟨by decide, by decide, by decide, by decide⟩, by decide, by decide, rfl⟩, by decide, by
      intro e he
      simp only [idle40, List.mem_singleton] at he
      subst he
      exact .inl rfl⟩

theorem unboundWith_inv (d : Draws) (hz : Nat) (m : Option Nat) : (unboundWith d hz m).Inv :=
  ⟨by simp [unboundWith, State.reset], rfl, fun _ => ⟨rfl, rfl, rfl, rfl, rfl, rfl, rfl⟩,
    fun h => by simp [unboundWith, State.reset] at h, by simp [unboundWith, State.reset],
    by simp [unboundWith, State.reset]⟩

theorem offered_inv {s : State} (h : s.Inv) (es : List HostEvent) : (offered s es).Inv := h.setInputs es

theorem witness_EveryColourWordIsLegal : (0x02123456#32 : Word).extractLsb' 24 8 = 0x02#8 := by decide

theorem witness_ReservedWordRefused :
    (∃ x, decode 0x01000001#32 = .error x) ∧
    (offered State.reset [.command 0x01000001#32 Draws.allTrue]).phase ≠ .transmitting ∧
    (0x03000000#32 : Word).extractLsb' 24 8 = 0x03#8 := by
  exact ⟨⟨_, rfl⟩, by decide, by decide⟩

theorem witness_ResponseWord :
    (∃ t, exec .new State.reset = .next t) ∧ (∃ t, exec (.setPixel 1#8 2#8 3#8) State.reset = .next t) :=
  ⟨⟨_, rfl⟩, ⟨_, rfl⟩⟩

theorem witness_StepRunsDecodedCommand :
    (offered idle40 [.command 0x02010203#32 Draws.allTrue]).phase ≠ .transmitting ∧
    decode 0x02010203#32 = .ok (.setPixel 1#8 2#8 3#8) ∧ decodeTableWord 32 0x01000000 = some .new := by decide

theorem witness_TicksRoundsToNearest :
    2 * (350 * 10000000) = (2 * 3 + 1) * 1000000000 ∧ noTie 40000000 = true ∧ 350 * 1428571 < 500000000 ∧
    ¬ 350 * 1428572 < 500000000 := by decide

theorem witness_TicksLaws : (1000000000 ∣ 350 * 20000000) ∧ 20000000 ∣ 40000000 ∧ 3333334 ≤ 3333334 := by decide

theorem witness_PackIsGreenRedBlue : 23 < 24 ∧ pack 1#8 2#8 3#8 = pack 1#8 2#8 3#8 := by decide

theorem witness_SlotMap : idle40.select false = some ⟨⟨.high, 14⟩, ⟨.low, 32⟩⟩ ∧
    idle40.select true = some ⟨⟨.high, 28⟩, ⟨.low, 24⟩⟩ := by decide

theorem witness_PixelTrainAlternates :
    let p0 : Pair := ⟨⟨.high, 14⟩, ⟨.low, 32⟩⟩
    p0.high.level = .high ∧ p0.low.level = .low ∧ 47 < 48 := by decide

theorem witness_ResetTrainIsTwentyFourLowTicks :
    let tr : Train := [⟨.low, 20⟩, ⟨.low, 4⟩]
    (∀ p ∈ tr, p.level = .low) ∧ trainTicks tr = 24 := by decide

theorem witness_WireSignalIdentifiesColour :
    1428572 ≤ 40000000 ∧ distinct 40000000 = true ∧ distinct 1428572 = false := by decide

theorem witness_PixelTrainDuration : 0 < 20000000 ∧ 20000000 ∣ 20000000 := by decide

/-- At the lowest admitted frequency, and at the largest duration `MAX_TICKS` = 32767 admits (V-T). -/
theorem witness_NewConstructsDriver :
    (∀ s ∈ [unboundWith Draws.allTrue 1428572 none, unboundWith Draws.allTrue 40958750000 (some 32767)],
      s.phase = .unbound ∧ s.draws = Draws.allTrue ∧ 1428572 ≤ s.ticksHz) ∧
    (∀ ns ∈ [350, 800, 700, 600], ticks ns 40958750000 ≤ 32767) := by decide

/-- One state for each of the four clauses, the third at 32768 ticks against `MAX_TICKS` = 32767 (V-T). -/
theorem witness_NewReportsFirstError :
    (unboundWith ⟨false, false, false⟩ 1000000 none).draws.cfgOk = false ∧
    (unboundWith ⟨true, false, true⟩ 40000000 none).draws.clkOk = false ∧
    (∃ ns ∈ [350, 800, 700, 600], 32767 < ticks ns 40960000000) ∧
    ((unboundWith ⟨true, true, false⟩ 1428572 none).draws.txOk = false ∧
      1428572 ≤ (unboundWith ⟨true, true, false⟩ 1428572 none).ticksHz) := by decide

theorem witness_NewZeroTickRefused :
    (unboundWith ⟨true, true, false⟩ 1428571 (some 1)).phase = .unbound ∧
    (∀ ns ∈ [350, 800, 700, 600], ticks ns 1428571 ≤ 1) := by decide

theorem witness_NewWhileBoundRefused : idle40.phase ≠ .unbound ∧ sending.phase ≠ .unbound := by decide

theorem witness_ToleranceNotEnforced :
    (unboundWith Draws.allTrue 2000000 none).phase = .unbound ∧
    (unboundWith Draws.allTrue 2000000 none).draws = Draws.allTrue ∧
    (unboundWith Draws.allTrue 2000000 none).inst.maxTicks = none := by decide

theorem witness_NewAtFortyMegahertz : State.reset.ResetValues ∧ State.reset.wire = [] ∧
    State.reset.draws = Draws.allTrue ∧ State.reset.inst.maxTicks = none ∧ State.reset.ticksHz = 40000000 :=
  ⟨⟨rfl, rfl, rfl, rfl, rfl, rfl, rfl, memRead_emptyBuffer, rfl⟩, rfl, rfl, rfl, rfl⟩

theorem witness_SetPixelSendsTrain : idle40.phase = .idle ∧ idle40.t0h = some ⟨.high, 14⟩ ∧
    idle40.t0l = some ⟨.low, 32⟩ ∧ idle40.t1h = some ⟨.high, 28⟩ ∧ idle40.t1l = some ⟨.low, 24⟩ ∧
    idle40.draws.txOk = true := by decide

theorem witness_SetPixelTransmitError :
    let s : State := { idle40 with draws := ⟨true, true, false⟩ }
    s.phase = .idle ∧ s.t0h = some ⟨.high, 14⟩ ∧ s.t0l = some ⟨.low, 32⟩ ∧ s.t1h = some ⟨.high, 28⟩ ∧
    s.t1l = some ⟨.low, 24⟩ ∧ s.draws.txOk = false := by decide

theorem witness_SetPixelWithoutDriverRefused : State.reset.phase ≠ .idle ∧ sending.phase ≠ .idle := by decide

/-- Both ways to read an unwritten register, in states no run reaches; and a state of the third clause. -/
theorem witness_UnwrittenRegisterReadRefused :
    ((pack 0#8 0#8 1#8).getLsbD 0 = true ∧ ({ idle40 with t1l := none } : State).t1l = none) ∧
    ((pack 0#8 0#8 1#8).getLsbD 1 = false ∧ ({ idle40 with t0h := none } : State).t0h = none) ∧
    (idle40.Inv ∧ ∃ t, step idle40 = .next t) :=
  ⟨by decide, by decide, idle40_inv, ⟨_, rfl⟩⟩

/-- Two states that agree on what `SET_PIXEL` reads and differ in the rest, the history and the mark among it. -/
theorem witness_SetPixelReadsOnlyItsInputs :
    let s' : State := { idle40 with wire := [.unspecified], refused := true, refusals := [.foreignAccess],
                                    results := [.err .transmitError], ticksHz := 1, f := none, owns := false,
                                    draws := ⟨false, false, idle40.draws.txOk⟩, inputs := [.release] }
    idle40.phase = s'.phase ∧ idle40.t0h = s'.t0h ∧ idle40.t0l = s'.t0l ∧ idle40.t1h = s'.t1h ∧
      idle40.t1l = s'.t1l ∧ idle40.draws.txOk = s'.draws.txOk ∧ ∃ t, exec (.setPixel 1#8 2#8 3#8) idle40 = .next t := by
  refine ⟨rfl, rfl, rfl, rfl, rfl, rfl, ?_⟩
  rcases execSetPixel_cases idle40 1#8 2#8 3#8 with ⟨_, h⟩ | ⟨_, ⟨h, _⟩ | ⟨_, _, h, _⟩ | ⟨_, h⟩⟩ <;> exact ⟨_, h⟩

/-- Two different states with the same registers, and the same colour twice. -/
theorem witness_SameColourSameTrain :
    ∃ t u, exec (.setPixel 18#8 52#8 86#8) idle40 = .next t ∧ exec (.setPixel 18#8 52#8 86#8) t = .next u ∧
      ({ idle40 with wire := [] } : State).t0h = idle40.t0h ∧ idle40.draws.txOk = true ∧ idle40.Inv := by
  have h : ∀ s : State, ∃ t, exec (.setPixel 18#8 52#8 86#8) s = .next t := fun s => by
    rcases execSetPixel_cases s 18#8 52#8 86#8 with ⟨_, h⟩ | ⟨_, ⟨h, _⟩ | ⟨_, _, h, _⟩ | ⟨_, h⟩⟩ <;> exact ⟨_, h⟩
  obtain ⟨t, ht⟩ := h idle40
  obtain ⟨u, hu⟩ := h t
  exact ⟨t, u, ht, hu, rfl, rfl, idle40_inv⟩

theorem witness_ConfigErrorOnlyFromNew :
    ∃ t, step (offered State.reset [.command 0x01000000#32 ⟨false, true, true⟩]) = .next t ∧
      t.results = [] ++ [.err .hardwareConfigError] := ⟨_, rfl, rfl⟩

set_option maxRecDepth 4000 in
/-- A `TransmitError` of each command. -/
theorem witness_TransmitErrorIffUnspecified :
    (∃ t, step (offered State.reset [.command 0x01000000#32 ⟨true, true, false⟩]) = .next t ∧
      t.results = [] ++ [.err .transmitError]) ∧
    (after (step (offered idle40 [.command 0x02003200#32 ⟨true, true, false⟩]))).map (fun t => t.results) =
      some (idle40.results ++ [.err .transmitError]) := ⟨⟨_, rfl, rfl⟩, by decide⟩

theorem witness_RefusalChangesNothingElse :
    (∃ t, step (offered State.reset [.release]) = .next t ∧ t.refusals = [.releaseWithoutDriver]) ∧
    (∃ t, step (offered idle40 [.command 0x01000000#32 Draws.allTrue]) = .next t ∧ t.refusals = [.newWhileBound]) :=
  ⟨⟨_, rfl, rfl⟩, ⟨_, rfl, rfl⟩⟩

theorem witness_CommandFrame : (∃ t, exec .new idle40 = .next t) ∧ (∃ t, exec .new State.reset = .next t) ∧
    (∃ t, exec (.setPixel 0#8 0#8 0#8) State.reset = .next t) := ⟨⟨_, rfl⟩, ⟨_, rfl⟩, ⟨_, rfl⟩⟩

theorem witness_ResetState :
    (∃ t, exec .new (unboundWith ⟨true, false, true⟩ 1 none) = .next t ∧ t.results = [] ++ [.err .hardwareConfigError]) ∧
    (idle40.phase = .idle ∧ ∃ t, execRelease idle40 = .next t) := ⟨⟨_, rfl, rfl⟩, rfl, ⟨_, rfl⟩⟩

theorem witness_StepKeepsInvariant :
    (idle40.Inv ∧ ∃ t, step idle40 = .next t) ∧
    ((offered State.reset [.command 0x01000000#32 Draws.allTrue]).Inv ∧
      ∃ t, step (offered State.reset [.command 0x01000000#32 Draws.allTrue]) = .next t) :=
  ⟨⟨idle40_inv, ⟨_, rfl⟩⟩, offered_inv reset_inv _, ⟨_, rfl⟩⟩

/-- Both changes of phase. -/
theorem witness_PhaseTransitions :
    (∃ t, step (offered State.reset [.command 0x01000000#32 Draws.allTrue]) = .next t ∧ t.phase = .idle) ∧
    ((offered idle40 [.release]).Inv ∧ ∃ t, step (offered idle40 [.release]) = .next t ∧ t.phase = .unbound) :=
  ⟨⟨_, rfl, rfl⟩, offered_inv idle40_inv _, ⟨_, rfl, rfl⟩⟩

theorem witness_WireIsAppendOnly :
    ∃ t, step (offered State.reset [.command 0x01000000#32 Draws.allTrue]) = .next t := ⟨_, rfl⟩

theorem witness_ReleaseDestroysDriver :
    ((offered idle40 [.release]).inputs = .release :: [] ∧ (offered idle40 [.release]).phase = .idle) ∧
    ((offered State.reset [.release]).inputs = .release :: [] ∧ (offered State.reset [.release]).phase ≠ .idle) := by
  decide

theorem witness_CalibrationFixedWhileDriverLives :
    let s := offered idle40 [.command 0x03000000#32 Draws.allTrue, .tickRate 80000000, .release]
    s.Inv ∧ s.phase = .idle ∧ HostEvent.release ∉ s.inputs.take 2 ∧ ∃ t, Host.Core.run core 2 s = .next t :=
  ⟨offered_inv idle40_inv _, rfl, by decide, ⟨_, rfl⟩⟩

theorem witness_OneResetTrainPerDriver :
    let s := offered State.reset [.command 0x01000000#32 Draws.allTrue, .command 0x01000000#32 Draws.allTrue]
    s.Inv ∧ s.phase = .unbound ∧ ∃ t u, step s = .next t ∧ t.phase = .idle ∧ HostEvent.release ∉ t.inputs.take 1 ∧
      Host.Core.run core 1 t = .next u :=
  ⟨offered_inv reset_inv _, rfl, _, _, rfl, rfl, by decide, rfl⟩

/-- Both ways to come to a reconstruction: a `RELEASE`, and a `NEW` that failed. -/
theorem witness_ReconstructionStartsAfresh :
    let more : List HostEvent := [.tickRate 80000000, .command 0x01000000#32 Draws.allTrue]
    let fail : HostEvent := .command 0x01000000#32 ⟨true, false, true⟩
    ((offered idle40 (.release :: more)).Inv ∧ ∃ t, step (offered idle40 (.release :: more)) = .next t ∧
      t.inputs = more) ∧
    ((offered State.reset (fail :: more)).Inv ∧ ∃ t, step (offered State.reset (fail :: more)) = .next t ∧
      t.results = [] ++ [.err .hardwareConfigError] ∧ t.inputs = more) :=
  ⟨⟨offered_inv idle40_inv _, _, rfl, rfl⟩, offered_inv reset_inv _, _, rfl, rfl, rfl⟩

theorem witness_RetryAfterTransmitError :
    let s : State := { offered idle40 [.command 0x02003200#32 Draws.allTrue] with draws := ⟨true, true, false⟩ }
    s.phase = .idle ∧ s.draws.txOk = false ∧ Draws.allTrue.txOk = true ∧
      s.inputs = .command (encode (.setPixel 0#8 50#8 0#8)) Draws.allTrue :: [] := by decide

theorem witness_ConcurrentCommandRefused :
    (offered idle40 [.overlapped 0x01000000#32]).inputs = .overlapped 0x01000000#32 :: [] ∧
    ((offered sending [.command 0x01000000#32 Draws.allTrue]).inputs = .command 0x01000000#32 Draws.allTrue :: [] ∧
      sending.phase = .transmitting) := by decide

/-- The block's own pin and another, and the clock in each phase. -/
theorem witness_ForeignAccessRefused :
    (offered idle40 [.foreignPin ⟨0⟩]).inst.pin = ⟨0⟩ ∧ (offered idle40 [.foreignPin ⟨1⟩]).inst.pin ≠ ⟨1⟩ ∧
    (offered idle40 [.foreignChannel ⟨0⟩]).inst.channel = ⟨0⟩ ∧ State.reset.phase = .unbound ∧
    idle40.ticksHz = 40000000 ∧ idle40.ticksHz ≠ 80000000 := by decide

theorem witness_IdleBlockWaits : State.reset.inputs = [] := by decide

end Sys2Proof.Tests
end

section
/-! Progress: a command, a host event and a step always answer a next state (00_scope.md R10, 60_exceptions.md R185). -/

namespace Sys2Proof.Machine

/-- Each of a command's endings, the errors and the refusals of the spec among them, is a next state. -/
theorem exec_has_next (i : Instr) (s : State) : ∃ t, exec i s = .next t := by
  rcases exec_cases i s with ⟨_, refused⟩ | ⟨_, _, configError⟩ | ⟨_, _, _, resetFailed⟩ |
    ⟨_, _, _, _, constructed⟩ | ⟨_, _, _, _, _, _, sent, _⟩ | ⟨_, _, _, _, _, sendFailed⟩
  · exact ⟨_, refused⟩
  · exact ⟨_, configError⟩
  · exact ⟨_, resetFailed⟩
  · exact ⟨_, constructed⟩
  · exact ⟨_, sent⟩
  · exact ⟨_, sendFailed⟩

/-- The one event whose outcome is not a named update already is a command that runs, and a command has a next state
under whatever draws it comes with. -/
theorem handleEvent_has_next (e : HostEvent) (s : State) : ∃ t, handleEvent e s = .next t := by
  rcases handleEvent_cases e s with ⟨_, _, refused⟩ | ⟨_, d, i, _, _, _, runs⟩ | ⟨_, _, _, _, portRefused⟩ |
    ⟨_, _, released⟩ | ⟨_, _, _, rateChanged⟩ | ⟨_, unaffected⟩
  · exact ⟨_, refused⟩
  · obtain ⟨t, ht⟩ := exec_has_next i (s.setDraws d)
    exact ⟨t, runs.trans ht⟩
  · exact ⟨_, portRefused⟩
  · exact ⟨_, released⟩
  · exact ⟨_, rateChanged⟩
  · exact ⟨_, unaffected⟩

/-- Settles O37: with no event left the block waits, and otherwise the step is the answer to the next event. -/
theorem everyStateHasANextState : Obligations.EveryStateHasANextState := by
  intro s
  cases hin : s.inputs with
  | nil => exact ⟨s, step_of_no_inputs s hin⟩
  | cons e rest =>
    obtain ⟨t, ht⟩ := handleEvent_has_next e (s.setInputs rest)
    exact ⟨t, (step_of_inputs s e rest hin).trans ht⟩

end Sys2Proof.Machine
end

section
/-! The trains a Driver sends are legal on its wire (30_encoding.md R83, R85, 40_construct.md R115). -/

namespace Sys2Proof.Machine

/-- Pairs of a High and a Low pulse, sent one after the other, alternate from High (30_encoding.md R85). -/
theorem alternatesFrom_high_flatMap_pulses (pairAt : Nat → Pair)
    (hlevels : ∀ k, (pairAt k).high.level = .high ∧ (pairAt k).low.level = .low) (slots : List Nat) :
    Train.alternatesFrom .high (slots.flatMap fun k => (pairAt k).pulses) = true := by
  induction slots with
  | nil => rfl
  | cons k slots ih => simpa [Pair.pulses, Train.alternatesFrom, hlevels k] using ih

theorem pixelTrain_pixelShaped (p0 p1 : Pair) (v : BitVec 24)
    (h0 : p0.high.level = .high ∧ p0.low.level = .low) (h1 : p1.high.level = .high ∧ p1.low.level = .low) :
    Train.pixelShaped (pixelTrain p0 p1 v) = true := by
  have alternates : Train.alternatesFrom .high (pixelTrain p0 p1 v) = true := by
    refine alternatesFrom_high_flatMap_pulses (fun k => if v.getLsbD (nBits - 1 - k) then p1 else p0) (fun k => ?_) _
    split
    · exact h1
    · exact h0
  simp [Train.pixelShaped, alternates]

/-- A pixel train is made of the pulses of its two pairs and no other. -/
theorem mem_pixelTrain {p0 p1 : Pair} {v : BitVec 24} {p : Pulse} (h : p ∈ pixelTrain p0 p1 v) :
    p ∈ p0.pulses ∨ p ∈ p1.pulses := by
  obtain ⟨k, -, hk⟩ := List.mem_flatMap.mp h
  split at hk
  · exact .inr hk
  · exact .inl hk

/-- A calibration that passes the two checks of 40_construct.md R115 gives pulses the generator can hold. -/
theorem CalReg.calibrated_fits {maxTicks : Option Nat} {f : Nat} (fits : calibrationOverflows maxTicks f = false)
    (nonzero : calibrationZero f = false) (r : CalReg) : (r.calibrated f).fits maxTicks = true := by
  have mem : (r.calibrated f).ticks ∈ durations f := List.mem_map_of_mem (by cases r <;> decide)
  have hne := List.any_eq_false.mp nonzero _ mem
  have hle := List.any_eq_false.mp fits _ mem
  have hpos : 1 ≤ (r.calibrated f).ticks := Nat.one_le_iff_ne_zero.mpr (by simpa using hne)
  cases maxTicks with
  | none => simp [Pulse.fits, hpos]
  | some m => simpa [Pulse.fits, hpos, exceeds] using hle

/-- With a Driver both pairs can be read, and they are the calibrated ones (10_state.md R21, R23). -/
theorem State.IdleInv.select {s : State} (h : s.IdleInv) :
    s.select false = some ⟨CalReg.t0h.calibrated s.ticksHz, CalReg.t0l.calibrated s.ticksHz⟩ ∧
    s.select true = some ⟨CalReg.t1h.calibrated s.ticksHz, CalReg.t1l.calibrated s.ticksHz⟩ := by
  obtain ⟨ht0h, ht0l, ht1h, ht1l⟩ := h.calibrated
  constructor
  · simp only [State.select, State.readCal, ht0h, ht0l]; rfl
  · simp only [State.select, State.readCal, ht1h, ht1l]; rfl

/-- What `SET_PIXEL` sends with a Driver is a pixel train that fits. -/
theorem State.IdleInv.pixelTrain_legal {s : State} (h : s.IdleInv) (v : BitVec 24) :
    (WireEvent.sent (pixelTrain ⟨CalReg.t0h.calibrated s.ticksHz, CalReg.t0l.calibrated s.ticksHz⟩
      ⟨CalReg.t1h.calibrated s.ticksHz, CalReg.t1l.calibrated s.ticksHz⟩ v)).legal s.inst.maxTicks := by
  refine .inr ⟨pixelTrain_pixelShaped _ _ v ⟨rfl, rfl⟩ ⟨rfl, rfl⟩, List.all_eq_true.mpr fun p hp => ?_⟩
  have hmem : p = CalReg.t0h.calibrated s.ticksHz ∨ p = CalReg.t0l.calibrated s.ticksHz ∨
      p = CalReg.t1h.calibrated s.ticksHz ∨ p = CalReg.t1l.calibrated s.ticksHz := by
    simpa [Pair.pulses, or_assoc] using mem_pixelTrain hp
  rcases hmem with rfl | rfl | rfl | rfl <;> exact CalReg.calibrated_fits h.fits h.nonzero _

end Sys2Proof.Machine
end

section
/-! The invariant of the states between steps (10_state.md R24, R30, R33): one lemma for each named update, then for a
command and for a step. -/

namespace Sys2Proof.Machine

section
variable {s : State}

theorem State.Inv.setDraws (h : s.Inv) (d : Draws) : (s.setDraws d).Inv :=
  { h with unbound := fun hp => { h.unbound hp with }, idle := fun hp => { h.idle hp with } }

theorem State.Inv.respond (h : s.Inv) (r : Result) : (s.respond r).Inv :=
  { h with unbound := fun hp => { h.unbound hp with }, idle := fun hp => { h.idle hp with } }

theorem State.Inv.markRefused (h : s.Inv) (why : RefuseReason) : (s.markRefused why).Inv :=
  { h with
    unbound := fun hp => { h.unbound hp with }, idle := fun hp => { h.idle hp with }, marked := by simp }

/-- Without a Driver nothing depends on the reported frequency. -/
theorem State.Inv.setTicksHz (h : s.Inv) (hp : s.phase = .unbound) (hz : Nat) : (s.setTicksHz hz).Inv :=
  { h with unbound := fun hp => { h.unbound hp with }, idle := fun hidle => by simp [hp] at hidle }

theorem State.Inv.unbind (h : s.Inv) : s.unbind.Inv :=
  { h with quiet := by simp, buffer := rfl, unbound := fun _ => ⟨rfl, rfl, rfl, rfl, rfl, rfl, rfl⟩, idle := by simp }

theorem State.Inv.emit (h : s.Inv) {e : WireEvent} (he : e.legal s.inst.maxTicks) : (s.emit e).Inv :=
  { h with
    unbound := fun hp => { h.unbound hp with }, idle := fun hp => { h.idle hp with },
    wire := fun e' he' => (List.mem_append.mp he').elim (h.wire e') fun heq => List.mem_singleton.mp heq ▸ he }

theorem State.Inv.finishPixel (h : s.Inv) (hp : s.phase = .idle) : s.finishPixel.Inv :=
  { h with quiet := by simp, buffer := rfl, unbound := by simp, idle := fun _ => { h.idle hp with } }

/-- `NEW` constructs under the invariant when calibration passes the two checks of 40_construct.md R115. -/
theorem State.Inv.constructed (h : s.Inv) (fits : calibrationOverflows s.inst.maxTicks s.ticksHz = false)
    (nonzero : calibrationZero s.ticksHz = false) : s.constructed.Inv :=
  { h.emit (e := .sent resetTrain) (.inl rfl) with
    quiet := by simp, unbound := by simp, idle := fun _ => ⟨rfl, rfl, ⟨rfl, rfl, rfl, rfl⟩, fits, nonzero, rfl⟩ }

end

/-- A command, however it ends, keeps the invariant. -/
theorem CommandEffect.inv {i : Instr} {s t : State} (heff : CommandEffect i s t) (h : s.Inv) : t.Inv := by
  rcases heff with ⟨why, rfl⟩ | ⟨-, -, rfl | rfl | ⟨fits, nonzero, rfl⟩⟩ | ⟨r, g, b, -, hp, ⟨tr, htr, rfl⟩ | rfl⟩
  · exact h.markRefused why
  · exact h.unbind.respond _
  · exact (h.emit (e := .unspecified) trivial).unbind.respond _
  · exact (h.constructed fits nonzero).respond _
  · have hidle := h.idle hp
    obtain ⟨select0, select1⟩ := hidle.select
    have legal : (WireEvent.sent tr).legal s.inst.maxTicks := by
      rw [htr _ _ select0 select1]
      exact hidle.pixelTrain_legal _
    exact ((h.emit legal).finishPixel hp).respond _
  · exact ((h.emit (e := .unspecified) trivial).finishPixel hp).respond _

/-- Settles O36: each thing a step can do keeps the invariant. -/
theorem stepKeepsInvariant : Obligations.StepKeepsInvariant := by
  intro s t h hstep
  rcases step_cases hstep with ⟨-, rfl⟩ | ⟨e, rest, -, hcase⟩
  · exact h
  have taken := h.setInputs rest
  rcases hcase with ⟨-, why, rfl⟩ | ⟨-, rfl⟩ | ⟨-, -, rfl⟩ | ⟨hz, -, hp, rfl⟩ | ⟨w, d, -, hcommand⟩
  · exact taken.markRefused why
  · exact taken
  · exact taken.unbind
  · exact taken.setTicksHz hp hz
  · rcases hcommand with ⟨why, rfl⟩ | ⟨i, -, -, heff⟩
    · exact (taken.setDraws d).markRefused why
    · exact heff.inv (taken.setDraws d)

/-- Settles O35: at reset there is no Driver, and the histories are empty. -/
theorem invariantAtReset : Obligations.InvariantAtReset where
  quiet := by decide
  buffer := rfl
  unbound _ := ⟨rfl, rfl, rfl, rfl, rfl, rfl, rfl⟩
  idle h := absurd h (by decide)
  marked := by decide
  wire _ h := absurd h List.not_mem_nil

end Sys2Proof.Machine
end

section
/-! What a command and a step leave unchanged: the Driver (10_state.md R22), the parameters, and every earlier entry of
the histories (10_state.md R31). -/

namespace Sys2Proof.Machine

/-- Two states with the same phase, calibration, divisor, frequency latch and handles (10_state.md R22). -/
structure State.SameDriver (s t : State) : Prop where
  phase : t.phase = s.phase
  t0h   : t.t0h = s.t0h
  t0l   : t.t0l = s.t0l
  t1h   : t.t1h = s.t1h
  t1l   : t.t1l = s.t1l
  div   : t.div = s.div
  f     : t.f = s.f
  owns  : t.owns = s.owns

theorem State.SameDriver.refl (s : State) : s.SameDriver s := ⟨rfl, rfl, rfl, rfl, rfl, rfl, rfl, rfl⟩

theorem State.SameDriver.trans {s t u : State} (h : s.SameDriver t) (h' : t.SameDriver u) : s.SameDriver u :=
  ⟨h'.phase.trans h.phase, h'.t0h.trans h.t0h, h'.t0l.trans h.t0l, h'.t1h.trans h.t1h, h'.t1l.trans h.t1l,
    h'.div.trans h.div, h'.f.trans h.f, h'.owns.trans h.owns⟩

theorem State.sameDriver_setInputs (s : State) (es : List HostEvent) : s.SameDriver (s.setInputs es) :=
  ⟨rfl, rfl, rfl, rfl, rfl, rfl, rfl, rfl⟩

theorem State.sameDriver_setDraws (s : State) (d : Draws) : s.SameDriver (s.setDraws d) :=
  ⟨rfl, rfl, rfl, rfl, rfl, rfl, rfl, rfl⟩

theorem State.sameDriver_markRefused (s : State) (why : RefuseReason) : s.SameDriver (s.markRefused why) :=
  ⟨rfl, rfl, rfl, rfl, rfl, rfl, rfl, rfl⟩

/-- Whether `SET_PIXEL` is refused, completes or fails, the Driver is as it was (41_set_pixel.md R147). -/
theorem CommandEffect.sameDriver_of_setPixel {r g b : Byte} {s t : State}
    (heff : CommandEffect (.setPixel r g b) s t) : s.SameDriver t := by
  rcases heff with ⟨why, rfl⟩ | ⟨hi, -⟩ | ⟨-, -, -, -, hp, ⟨tr, -, rfl⟩ | rfl⟩
  · exact s.sameDriver_markRefused why
  · cases hi
  · exact ⟨hp.symm, rfl, rfl, rfl, rfl, rfl, rfl, rfl⟩
  · exact ⟨hp.symm, rfl, rfl, rfl, rfl, rfl, rfl, rfl⟩

/-- While a Driver exists `NEW` is refused, so no command changes it. -/
theorem CommandEffect.sameDriver_of_idle {i : Instr} {s t : State} (heff : CommandEffect i s t)
    (hp : s.phase = .idle) : s.SameDriver t := by
  cases i with
  | setPixel r g b => exact heff.sameDriver_of_setPixel
  | new =>
    rcases heff with ⟨why, rfl⟩ | ⟨-, hunbound, -⟩ | ⟨_, _, _, hi, -⟩
    · exact s.sameDriver_markRefused why
    · simp [hp] at hunbound
    · cases hi

/-- Only `RELEASE` can take a Driver away or change it. -/
theorem step_sameDriver_of_idle {s t : State} (hp : s.phase = .idle) (hrelease : ∀ rest, s.inputs ≠ .release :: rest)
    (hstep : step s = .next t) : s.SameDriver t := by
  rcases step_cases hstep with ⟨-, rfl⟩ | ⟨e, rest, hin, hcase⟩
  · exact .refl _
  have taken := s.sameDriver_setInputs rest
  rcases hcase with ⟨-, why, rfl⟩ | ⟨-, rfl⟩ | ⟨rfl, -, -⟩ | ⟨hz, -, hunbound, -⟩ | ⟨w, d, -, hcommand⟩
  · exact taken.trans (State.sameDriver_markRefused _ why)
  · exact taken
  · exact absurd hin (hrelease rest)
  · simp [hp] at hunbound
  · have drawn := taken.trans (State.sameDriver_setDraws _ d)
    rcases hcommand with ⟨why, rfl⟩ | ⟨i, -, -, heff⟩
    · exact drawn.trans (State.sameDriver_markRefused _ why)
    · exact drawn.trans (heff.sameDriver_of_idle hp)

/-- However a command ends, the parameters, the draws and the host's events stay, and the wire, the responses and the
reasons are only appended to. -/
theorem CommandEffect.frame {i : Instr} {s t : State} (heff : CommandEffect i s t) :
    t.inst = s.inst ∧ t.ticksHz = s.ticksHz ∧ t.draws = s.draws ∧ t.inputs = s.inputs ∧ s.wire <+: t.wire ∧
    s.results <+: t.results ∧ s.refusals <+: t.refusals := by
  rcases heff with ⟨why, rfl⟩ | ⟨-, -, rfl | rfl | ⟨-, -, rfl⟩⟩ | ⟨_, _, _, -, -, ⟨tr, -, rfl⟩ | rfl⟩
  all_goals exact ⟨rfl, rfl, rfl, rfl, by simp, by simp, by simp⟩

/-- A command puts at most one event on the wire (20_memory.md R55). -/
theorem CommandEffect.wire {i : Instr} {s t : State} (heff : CommandEffect i s t) :
    t.wire = s.wire ∨ ∃ e, t.wire = s.wire ++ [e] := by
  rcases heff with ⟨why, rfl⟩ | ⟨-, -, rfl | rfl | ⟨-, -, rfl⟩⟩ | ⟨_, _, _, -, -, ⟨tr, -, rfl⟩ | rfl⟩
  · exact .inl rfl
  · exact .inl rfl
  · exact .inr ⟨_, rfl⟩
  · exact .inr ⟨_, rfl⟩
  · exact .inr ⟨_, rfl⟩
  · exact .inr ⟨_, rfl⟩

/-- A step takes the first of the host's events and leaves the others. -/
theorem step_inputs {s t : State} (hstep : step s = .next t) : t.inputs = s.inputs.tail := by
  rcases step_cases hstep with ⟨hin, rfl⟩ | ⟨e, rest, hin, hcase⟩
  · simp [hin]
  rw [hin, List.tail_cons]
  rcases hcase with ⟨-, why, rfl⟩ | ⟨-, rfl⟩ | ⟨-, -, rfl⟩ | ⟨hz, -, -, rfl⟩ | ⟨w, d, -, ⟨why, rfl⟩ | ⟨i, -, -, heff⟩⟩
  · rfl
  · rfl
  · rfl
  · rfl
  · rfl
  · obtain ⟨-, -, -, hinputs, -⟩ := heff.frame
    exact hinputs

/-- A run of `n + 1` steps is a first step, which there always is, and a run of `n` steps. -/
theorem exists_step_of_run_succ {n : Nat} {s t : State} (hrun : Host.Core.run core (n + 1) s = .next t) :
    ∃ s', step s = .next s' ∧ Host.Core.run core n s' = .next t := by
  obtain ⟨s', hstep⟩ := everyStateHasANextState s
  exact ⟨s', hstep, (run_succ n hstep).symm.trans hrun⟩

/-- While the host offers no `RELEASE`, a run keeps the Driver it starts with. -/
theorem run_sameDriver_of_idle (n : Nat) : ∀ {s t : State}, s.phase = .idle → HostEvent.release ∉ s.inputs.take n →
    Host.Core.run core n s = .next t → s.SameDriver t := by
  induction n with
  | zero => intro s t _ _ hrun; cases hrun; exact .refl s
  | succ n ih =>
    intro s t hp hrelease hrun
    obtain ⟨s', hstep, hrest⟩ := exists_step_of_run_succ hrun
    have first : s.SameDriver s' := by
      refine step_sameDriver_of_idle hp (fun rest hin => hrelease ?_) hstep
      simp [hin]
    have later : HostEvent.release ∉ s'.inputs.take n := fun hmem => by
      rw [step_inputs hstep] at hmem
      exact hrelease (List.mem_of_mem_tail (by rwa [List.tail_take_eq_take_tail]))
    exact first.trans (ih (first.phase.trans hp) later hrest)

/-- Settles O41, by induction on the number of steps. -/
theorem calibrationFixedWhileDriverLives : Obligations.CalibrationFixedWhileDriverLives := by
  intro n s t _ hp hrelease hrun
  obtain ⟨phase, t0h, t0l, t1h, t1l, div, f, owns⟩ := run_sameDriver_of_idle n hp hrelease hrun
  exact ⟨phase.trans hp, t0h, t0l, t1h, t1l, div, f, owns⟩

/-- Settles O33, from the frame of each command's effect. -/
theorem commandFrame : Obligations.CommandFrame := by
  refine ⟨fun r g b s t hexec => ?_, fun s t hexec => ?_, fun i s t hexec => (commandEffect_of_exec hexec).frame⟩
  · obtain ⟨phase, t0h, t0l, t1h, t1l, div, f, owns⟩ := (commandEffect_of_exec hexec).sameDriver_of_setPixel
    exact ⟨t0h, t0l, t1h, t1l, div, f, owns, phase⟩
  · rcases commandEffect_of_exec hexec with ⟨why, rfl⟩ | ⟨-, -, rfl | rfl | ⟨-, -, rfl⟩⟩ | ⟨_, _, _, hi, -⟩
    · exact .inl rfl
    · exact .inr ⟨_, rfl⟩
    · exact .inr ⟨_, rfl⟩
    · exact .inl rfl
    · cases hi

/-- Settles O39: only a command writes to the wire. -/
theorem wireIsAppendOnly : Obligations.WireIsAppendOnly := by
  intro s t hstep
  rcases step_cases hstep with ⟨-, rfl⟩ | ⟨e, rest, -, hcase⟩
  · exact .inl rfl
  rcases hcase with ⟨-, why, rfl⟩ | ⟨-, rfl⟩ | ⟨-, -, rfl⟩ | ⟨hz, -, -, rfl⟩ | ⟨w, d, -, ⟨why, rfl⟩ | ⟨i, -, -, heff⟩⟩
  · exact .inl rfl
  · exact .inl rfl
  · exact .inl rfl
  · exact .inl rfl
  · exact .inl rfl
  · exact heff.wire

end Sys2Proof.Machine
end

section
/-! `NEW` constructs the Driver (40_construct.md R117). -/

namespace Sys2Proof.Machine

/-- Calibration does not overflow when the ticks of the four targets are within `MAX_TICKS` (40_construct.md R115). -/
theorem calibrationOverflows_eq_false_of_le {maxTicks : Option Nat} {f : Nat}
    (hle : ∀ m, maxTicks = some m → ∀ ns ∈ [350, 800, 700, 600], ticks ns f ≤ m) :
    calibrationOverflows maxTicks f = false :=
  (calibrationOverflows_eq_false_iff maxTicks f).mpr fun m hm => by simpa using hle m hm

/-- With every request answered and both checks of 40_construct.md R115 passed, `NEW` constructs. -/
theorem execNew_eq_returnOk_constructed {s : State} (hp : s.phase = .unbound) (hcfg : s.draws.cfgOk = true)
    (hclk : s.draws.clkOk = true) (htx : s.draws.txOk = true)
    (fits : calibrationOverflows s.inst.maxTicks s.ticksHz = false) (nonzero : calibrationZero s.ticksHz = false) :
    execNew s = returnOk s.constructed := by
  rcases execNew_cases s with ⟨hbound, -⟩ | ⟨-, ⟨hc, -⟩ | ⟨-, hk, -⟩ | ⟨-, -, ⟨ho, -⟩ | ⟨-, hz, -⟩ |
    ⟨-, -, ⟨ht, -⟩ | ⟨-, constructs⟩⟩⟩⟩
  · exact absurd hp hbound
  · simp [hcfg] at hc
  · simp [hclk] at hk
  · simp [fits] at ho
  · simp [nonzero] at hz
  · simp [htx] at ht
  · exact constructs

/-- Settles O17: the state the statement writes out is `State.constructed` and its response, unfolded. -/
theorem newConstructsDriver : Obligations.NewConstructsDriver := by
  intro s hp hcfg hclk htx hfreq hle
  have nonzero : calibrationZero s.ticksHz = false := (calibrationZero_eq_false_iff _).mpr hfreq
  exact execNew_eq_returnOk_constructed hp hcfg hclk htx (calibrationOverflows_eq_false_of_le hle) nonzero

end Sys2Proof.Machine
end

section
/-! Reads of a calibration register that holds `none` (10_state.md R23). -/

namespace Sys2Proof.Machine

theorem State.select_true_eq_none {s : State} (h : s.t1h = none ∨ s.t1l = none) : s.select true = none := by
  rcases h with h | h
  · simp [State.select, State.readCal, h]
  · cases hh : s.t1h <;> simp [State.select, State.readCal, h, hh]

theorem State.select_false_eq_none {s : State} (h : s.t0h = none ∨ s.t0l = none) : s.select false = none := by
  rcases h with h | h
  · simp [State.select, State.readCal, h]
  · cases hh : s.t0h <;> simp [State.select, State.readCal, h, hh]

/-- One bit whose pair cannot be read refuses the whole `SET_PIXEL`, whatever the other bits select. -/
theorem execSetPixel_eq_refuse_unwrittenRead {s : State} {r g b : Byte} (hp : s.phase = .idle) {i : Nat} (hi : i < 24)
    (hsel : s.select ((pack r g b).getLsbD i) = none) : execSetPixel r g b s = refuse .unwrittenRead s := by
  have hfill : scanFill s (pack r g b) nBits s.train = none := by
    rcases scanFill_spec s (pack r g b) 24 s.train le_rfl with ⟨_, _, _, hnone⟩ | ⟨_, _, hread, _⟩
    · exact hnone
    · exact absurd hsel (hread i hi).1
  simp [execSetPixel, hp, pixelFill, hfill]

/-- An answer to an event that came in `s` other than the refusal of an unwritten read. -/
def ReadsOnlyWritten (s : State) (answer : Answer) : Prop :=
  ∀ t, answer = .next t → t.refusals ≠ s.refusals ++ [.unwrittenRead]

theorem readsOnlyWritten_refuse {why : RefuseReason} (s : State) (hne : why ≠ .unwrittenRead) :
    ReadsOnlyWritten s (refuse why s) := by
  rintro t ⟨⟩
  simpa using hne

theorem readsOnlyWritten_next {s t : State} (h : t.refusals = s.refusals) : ReadsOnlyWritten s (.next t) := by
  rintro t' ⟨⟩
  simp [h]

/-- `NEW` reads no calibration register. -/
theorem execNew_readsOnlyWritten (s : State) : ReadsOnlyWritten s (execNew s) := by
  rcases execNew_cases s with ⟨-, e⟩ | ⟨-, ⟨-, e⟩ | ⟨-, -, e⟩ | ⟨-, -, ⟨-, e⟩ | ⟨-, -, e⟩ | ⟨-, -, ⟨-, e⟩ | ⟨-, e⟩⟩⟩⟩ <;>
    rw [e]
  · exact readsOnlyWritten_refuse s (by decide)
  · exact readsOnlyWritten_next rfl
  · exact readsOnlyWritten_next rfl
  · exact readsOnlyWritten_next rfl
  · exact readsOnlyWritten_refuse s (by decide)
  · exact readsOnlyWritten_next rfl
  · exact readsOnlyWritten_next rfl

section
variable {s : State}

/-- Under the invariant a Driver's four registers hold pulses, so `SET_PIXEL` comes to no such read. -/
theorem State.Inv.execSetPixel_readsOnlyWritten (hinv : s.Inv) (r g b : Byte) :
    ReadsOnlyWritten s (execSetPixel r g b s) := by
  rcases execSetPixel_cases s r g b with ⟨-, e⟩ | ⟨hp, ⟨-, hnone⟩ | ⟨tr, -, e, -⟩ | ⟨-, e⟩⟩
  · exact e ▸ readsOnlyWritten_refuse s (by decide)
  · obtain ⟨select0, select1⟩ := (hinv.idle hp).select
    simp [select0, select1] at hnone
  · exact e ▸ readsOnlyWritten_next rfl
  · exact e ▸ readsOnlyWritten_next rfl

theorem State.Inv.offerCommand_readsOnlyWritten (hinv : s.Inv) (w : Word) :
    ReadsOnlyWritten s (offerCommand w s) := by
  unfold offerCommand
  split
  · exact readsOnlyWritten_refuse s (by decide)
  split
  case h_1 i _ =>
    cases i with
    | new => exact execNew_readsOnlyWritten s
    | setPixel r g b => exact hinv.execSetPixel_readsOnlyWritten r g b
  case h_2 => exact readsOnlyWritten_refuse s (by decide)

/-- No event but a command can read a register, and a command reads none that holds `none`. -/
theorem State.Inv.handleEvent_readsOnlyWritten (hinv : s.Inv) (e : HostEvent) :
    ReadsOnlyWritten s (handleEvent e s) := by
  have unchanged : ReadsOnlyWritten s (.next s) := readsOnlyWritten_next rfl
  have foreign : ReadsOnlyWritten s (refuse .foreignAccess s) := readsOnlyWritten_refuse s (by decide)
  cases e with
  | command w d => exact (hinv.setDraws d).offerCommand_readsOnlyWritten w
  | overlapped w => exact readsOnlyWritten_refuse s (by decide)
  | release =>
    simp only [handleEvent, execRelease]
    split
    · exact readsOnlyWritten_next rfl
    · exact readsOnlyWritten_refuse s (by decide)
    · exact readsOnlyWritten_refuse s (by decide)
  | tickRate hz =>
    simp only [handleEvent, clockChange]
    split
    · exact readsOnlyWritten_next rfl
    · split <;> assumption
    · split <;> assumption
  | foreignPin p =>
    simp only [handleEvent, pinDriven]
    split <;> assumption
  | foreignChannel c =>
    simp only [handleEvent, channelUsed]
    split <;> assumption

theorem State.Inv.step_readsOnlyWritten (hinv : s.Inv) : ReadsOnlyWritten s (step s) := by
  cases hin : s.inputs with
  | nil => exact step_of_no_inputs s hin ▸ readsOnlyWritten_next rfl
  | cons e rest => exact step_of_inputs s e rest hin ▸ (hinv.setInputs rest).handleEvent_readsOnlyWritten e

end

/-- Settles O26: the scan stops at a bit whose pair cannot be read, and the invariant rules such a bit out. -/
theorem unwrittenRegisterReadRefused : Obligations.UnwrittenRegisterReadRefused := by
  refine ⟨⟨rfl, rfl, rfl, rfl⟩, fun s r g b hp hunwritten => ?_,
    fun s t hinv hstep => hinv.step_readsOnlyWritten t hstep⟩
  rcases hunwritten with ⟨⟨i, hi, hbit⟩, hnone⟩ | ⟨⟨i, hi, hbit⟩, hnone⟩
  · exact execSetPixel_eq_refuse_unwrittenRead hp hi (hbit ▸ State.select_true_eq_none hnone)
  · exact execSetPixel_eq_refuse_unwrittenRead hp hi (hbit ▸ State.select_false_eq_none hnone)

end Sys2Proof.Machine
end

section
/-! How a step meets the host: it runs the command offered (30_encoding.md R87), waits when none is (10_state.md R24),
and changes the phase in two ways only (10_state.md R25). -/

namespace Sys2Proof.Machine

/-- At a command port that is not busy a word that decodes runs, under the draws it comes with. -/
theorem step_of_command {s : State} {w : Word} {d : Draws} {rest : List HostEvent} {i : Instr}
    (hin : s.inputs = .command w d :: rest) (hp : s.phase ≠ .transmitting) (hdecode : decode w = .ok i) :
    step s = exec i ((s.setInputs rest).setDraws d) := by
  have hfree : ((s.setInputs rest).setDraws d).busy = false := by simpa [State.busy] using hp
  rw [step_of_inputs s _ rest hin]
  simp [handleEvent, offerCommand, hfree, hdecode]

theorem decode_tableWord_of_decodeTableWord {nbits w : Nat} {i : Instr} (h : decodeTableWord nbits w = some i) :
    decode (tableWord nbits w) = .ok i := by
  unfold decodeTableWord at h
  split at h
  · cases hdecode : decode (tableWord nbits w) with
    | ok j => simpa [hdecode, Except.toOption] using h
    | error x => simp [hdecode, Except.toOption] at h
  · cases h

/-- Settles O6: a word placed by `withFetchWord` is a command offered under the draws the state already holds. -/
theorem stepRunsDecodedCommand : Obligations.StepRunsDecodedCommand :=
  ⟨fun _ _ _ _ _ hin hp hdecode => step_of_command hin hp hdecode,
    fun s nbits w _ hp htable =>
      step_of_command (s := s.withFetchWord nbits w) rfl hp (decode_tableWord_of_decodeTableWord htable)⟩

/-- Settles O47, which is the step's equation for an empty list of events. -/
theorem idleBlockWaits : Obligations.IdleBlockWaits := step_of_no_inputs

/-- `NEW` has one word (30_encoding.md R94). -/
theorem eq_of_decode_eq_new {w : Word} (h : decode w = .ok .new) : w = 0x01000000#32 := by
  unfold decode at h
  split at h
  case isTrue hrow => exact (selectsRow_new_iff w).mp hrow
  case isFalse =>
    split at h
    · cases h
    · split at h <;> cases h

/-- A command changes the phase only as a `NEW` that returns `Ok`. -/
theorem CommandEffect.phase {i : Instr} {s t : State} (heff : CommandEffect i s t) :
    t.phase = s.phase ∨
    (i = .new ∧ s.phase = .unbound ∧ t.phase = .idle ∧ t.results = s.results ++ [.ok]) := by
  rcases heff with ⟨why, rfl⟩ | ⟨hi, hp, rfl | rfl | ⟨-, -, rfl⟩⟩ | ⟨_, _, _, -, hp, ⟨tr, -, rfl⟩ | rfl⟩
  · exact .inl rfl
  · exact .inl hp.symm
  · exact .inl hp.symm
  · exact .inr ⟨hi, hp, rfl, rfl⟩
  · exact .inl hp.symm
  · exact .inl hp.symm

/-- Settles O38: of everything a step can do only `RELEASE` and a command touch the phase. -/
theorem phaseTransitions : Obligations.PhaseTransitions := by
  intro s t _ hstep
  rcases step_cases hstep with ⟨-, rfl⟩ | ⟨e, rest, hin, hcase⟩
  · exact .inl rfl
  rcases hcase with ⟨-, why, rfl⟩ | ⟨-, rfl⟩ | ⟨rfl, hp, rfl⟩ | ⟨hz, -, -, rfl⟩ | ⟨w, d, rfl, hcommand⟩
  · exact .inl rfl
  · exact .inl rfl
  · exact .inr (.inr ⟨hp, rfl, rest, hin⟩)
  · exact .inl rfl
  rcases hcommand with ⟨why, rfl⟩ | ⟨i, hdecode, -, heff⟩
  · exact .inl rfl
  rcases heff.phase with same | ⟨rfl, hunbound, hidle, hok⟩
  · exact .inl same
  · obtain rfl := eq_of_decode_eq_new hdecode
    exact .inr (.inl ⟨hunbound, hidle, ⟨d, rest, hin⟩, hok⟩)

end Sys2Proof.Machine
end

section
/-! The reset values (10_state.md R34). -/

namespace Sys2Proof.Machine

theorem State.reset_resetValues : State.reset.ResetValues :=
  ⟨rfl, rfl, rfl, rfl, rfl, rfl, rfl, memRead_emptyBuffer, rfl⟩

theorem State.unbind_resetValues (s : State) : s.unbind.ResetValues :=
  ⟨rfl, rfl, rfl, rfl, rfl, rfl, rfl, memRead_emptyBuffer, rfl⟩

theorem State.ResetValues.respond {s : State} (h : s.ResetValues) (r : Result) : (s.respond r).ResetValues :=
  { h with }

/-- A `NEW` that returns an error has come back to the reset values (40_construct.md R118). -/
theorem CommandEffect.resetValues_of_err {s t : State} {e : HwError} (heff : CommandEffect .new s t)
    (herr : t.results = s.results ++ [.err e]) : t.ResetValues ∧ t.refused = s.refused := by
  rcases heff with ⟨why, rfl⟩ | ⟨-, -, rfl | rfl | ⟨-, -, rfl⟩⟩ | ⟨_, _, _, hi, -⟩
  · simp at herr
  · exact ⟨s.unbind_resetValues.respond _, rfl⟩
  · exact ⟨(State.unbind_resetValues _).respond _, rfl⟩
  · simp at herr
  · cases hi

/-- `RELEASE` with a Driver destroys it (70_reset_and_hazards.md R202). -/
theorem execRelease_of_idle {s : State} (hp : s.phase = .idle) : execRelease s = .next s.unbind := by
  simp [execRelease, hp]

/-- Settles O34: a failed `NEW` and a `RELEASE` both end in `State.unbind`. -/
theorem resetState : Obligations.ResetState := by
  refine ⟨⟨State.reset_resetValues, rfl, rfl, rfl⟩, fun s t e hexec herr => ?_, fun s t hp hrelease => ?_⟩
  · have heff := commandEffect_of_exec hexec
    obtain ⟨-, -, -, -, hwire, -⟩ := heff.frame
    obtain ⟨hreset, hmark⟩ := heff.resetValues_of_err herr
    exact ⟨hreset, hwire, hmark⟩
  · rw [execRelease_of_idle hp] at hrelease
    cases hrelease
    exact ⟨s.unbind_resetValues, rfl, rfl⟩

end Sys2Proof.Machine
end

section
/-! The tick-by-tick signal of a train (20_memory.md R61). -/

namespace Sys2Proof.Machine

@[simp] theorem expand_nil : expand [] = [] := rfl

@[simp] theorem expand_cons (p : Pulse) (tr : Train) :
    expand (p :: tr) = List.replicate p.ticks p.level ++ expand tr := rfl

@[simp] theorem expand_append (tr tr' : Train) : expand (tr ++ tr') = expand tr ++ expand tr' :=
  List.flatMap_append

theorem expand_length (tr : Train) : (expand tr).length = trainTicks tr := by
  simp [expand, trainTicks, List.length_flatMap]

/-- Settles O12: a run of `m + n` equal levels is a run of `m` and a run of `n`. -/
theorem expandSplitsPulses : Obligations.ExpandSplitsPulses := by
  refine ⟨expand_length, fun pre post l m n => ?_⟩
  simp only [expand_append, expand_cons, List.replicate_add, List.append_assoc]

def Level.flip : Level → Level
  | .high => .low
  | .low => .high

theorem Level.flip_ne (l : Level) : l.flip ≠ l := by cases l <;> decide

theorem alternatesFrom_cons {l : Level} {p : Pulse} {tr : Train} :
    Train.alternatesFrom l (p :: tr) = true ↔ p.level = l ∧ Train.alternatesFrom l.flip tr = true := by
  cases l <;> simp [Train.alternatesFrom, Level.flip]

theorem sendable_cons {p : Pulse} {tr : Train} :
    Train.sendable (p :: tr) = true ↔ 1 ≤ p.ticks ∧ Train.sendable tr = true := by
  simp [Train.sendable]

/-- A pulse of at least one tick shows its level on the wire first. -/
theorem head?_expand_cons {p : Pulse} (tr : Train) (hticks : 1 ≤ p.ticks) :
    (expand (p :: tr)).head? = some p.level := by
  obtain ⟨n, hn⟩ : ∃ n, p.ticks = n + 1 := ⟨p.ticks - 1, by omega⟩
  simp [hn, List.replicate_succ]

/-- The signal of an alternating train does not begin with the other level. -/
theorem head?_expand_ne_flip {l : Level} {tr : Train} (halt : Train.alternatesFrom l.flip tr = true)
    (hsend : Train.sendable tr = true) : (expand tr).head? ≠ some l := by
  cases tr with
  | nil => simp
  | cons p tr =>
    obtain ⟨hlevel, -⟩ := alternatesFrom_cons.mp halt
    obtain ⟨hticks, -⟩ := sendable_cons.mp hsend
    rw [head?_expand_cons tr hticks, hlevel]
    simpa using l.flip_ne

/-- The first run of a signal, with what follows it, is determined by the signal. -/
theorem replicate_append_cancel {α : Type} {x : α} {s t : List α} (hs : s.head? ≠ some x) (ht : t.head? ≠ some x) :
    ∀ {m n : Nat}, List.replicate m x ++ s = List.replicate n x ++ t → m = n ∧ s = t
  | 0, 0, h => ⟨rfl, by simpa using h⟩
  | 0, n + 1, h => absurd (congrArg List.head? h) (by simpa [List.replicate_succ] using hs)
  | m + 1, 0, h => absurd (congrArg List.head? h) (by simpa [List.replicate_succ] using ht.symm)
  | m + 1, n + 1, h => by
    obtain ⟨hmn, hst⟩ := replicate_append_cancel hs ht (m := m) (n := n) (by simpa [List.replicate_succ] using h)
    exact ⟨by rw [hmn], hst⟩

theorem Pulse.ext : ∀ {p q : Pulse}, p.level = q.level → p.ticks = q.ticks → p = q
  | ⟨_, _⟩, ⟨_, _⟩, rfl, rfl => rfl

/-- The wire shows an alternating train of pulses that last as it is: every pulse is one run of its level. -/
theorem eq_of_expand_eq {l : Level} {tr tr' : Train} (halt : Train.alternatesFrom l tr = true)
    (halt' : Train.alternatesFrom l tr' = true) (hsend : Train.sendable tr = true)
    (hsend' : Train.sendable tr' = true) (h : expand tr = expand tr') : tr = tr' := by
  induction tr generalizing l tr' with
  | nil =>
    cases tr' with
    | nil => rfl
    | cons p' tr' => simpa [← h] using head?_expand_cons tr' (sendable_cons.mp hsend').1
  | cons p tr ih =>
    obtain ⟨hticks, hsend⟩ := sendable_cons.mp hsend
    cases tr' with
    | nil => simpa [h] using head?_expand_cons tr hticks
    | cons p' tr' =>
      obtain ⟨hticks', hsend'⟩ := sendable_cons.mp hsend'
      obtain ⟨hlevel, halt⟩ := alternatesFrom_cons.mp halt
      obtain ⟨hlevel', halt'⟩ := alternatesFrom_cons.mp halt'
      simp only [expand_cons, hlevel, hlevel'] at h
      obtain ⟨hrun, hrest⟩ :=
        replicate_append_cancel (head?_expand_ne_flip halt hsend) (head?_expand_ne_flip halt' hsend') h
      rw [Pulse.ext (hlevel.trans hlevel'.symm) hrun, ih halt halt' hsend hsend' hrest]

end Sys2Proof.Machine
end

section
/-! The pulses of a pixel train in the order of the packed bits (20_memory.md R56), and when they determine the packed
value (R62). -/

namespace Sys2Proof.Machine

/-- The pulses of slot `k` of a list of slots stand at places `2 * k` and `2 * k + 1`. -/
theorem getElem?_flatMap_pulses (pairAt : Nat → Pair) : ∀ (slots : List Nat) (k : Nat),
    (slots.flatMap fun j => (pairAt j).pulses)[2 * k]? = slots[k]?.map (fun j => (pairAt j).high) ∧
    (slots.flatMap fun j => (pairAt j).pulses)[2 * k + 1]? = slots[k]?.map (fun j => (pairAt j).low)
  | [], k => by simp
  | j :: slots, 0 => by simp [Pair.pulses]
  | j :: slots, k + 1 => by
    simpa [Pair.pulses, Nat.mul_succ] using getElem?_flatMap_pulses pairAt slots k

/-- The `k`-th pair transmitted is the pair of packed bit `23 - k` (20_memory.md R56). -/
theorem getElem?_pixelTrain (p0 p1 : Pair) (v : BitVec 24) {k : Nat} (hk : k < 24) :
    (pixelTrain p0 p1 v)[2 * k]? = some (if v.getLsbD (23 - k) then p1 else p0).high ∧
    (pixelTrain p0 p1 v)[2 * k + 1]? = some (if v.getLsbD (23 - k) then p1 else p0).low := by
  have hslots := getElem?_flatMap_pulses (fun j => if v.getLsbD (nBits - 1 - j) then p1 else p0) (List.range nBits) k
  rw [List.getElem?_range (show k < nBits from hk)] at hslots
  exact hslots

theorem Pair.ext : ∀ {p q : Pair}, p.high = q.high → p.low = q.low → p = q
  | ⟨_, _⟩, ⟨_, _⟩, rfl, rfl => rfl

/-- With two different pairs the pulses determine the packed value. -/
theorem pixelTrain_injective {p0 p1 : Pair} (hne : p0 ≠ p1) {v v' : BitVec 24}
    (h : pixelTrain p0 p1 v = pixelTrain p0 p1 v') : v = v' := by
  refine BitVec.eq_of_getLsbD_eq fun i hi => ?_
  obtain ⟨high, low⟩ := getElem?_pixelTrain p0 p1 v (k := 23 - i) (by omega)
  obtain ⟨high', low'⟩ := getElem?_pixelTrain p0 p1 v' (k := 23 - i) (by omega)
  rw [h, high', Option.some.injEq] at high
  rw [h, low', Option.some.injEq] at low
  rw [show 23 - (23 - i) = i by omega] at high low
  have hpair : (if v.getLsbD i then p1 else p0) = if v'.getLsbD i then p1 else p0 := Pair.ext high.symm low.symm
  cases hv : v.getLsbD i <;> cases hv' : v'.getLsbD i <;> simp [hv, hv', hne, hne.symm] at hpair ⊢

/-- One pair for both bit values spells every packed value alike. -/
theorem pixelTrain_same_pair (p : Pair) (v v' : BitVec 24) : pixelTrain p p v = pixelTrain p p v' := by
  simp [pixelTrain]

/-- The pair of a 0 bit at tick frequency `f` (10_state.md R21). -/
def zeroPair (f : Nat) : Pair := ⟨CalReg.t0h.calibrated f, CalReg.t0l.calibrated f⟩

/-- The pair of a 1 bit at tick frequency `f` (10_state.md R21). -/
def onePair (f : Nat) : Pair := ⟨CalReg.t1h.calibrated f, CalReg.t1l.calibrated f⟩

theorem distinct_iff_ticks_ne (f : Nat) :
    distinct f = true ↔ ticks 350 f ≠ ticks 700 f ∨ ticks 800 f ≠ ticks 600 f := by
  simp [distinct, t0hNs, t0lNs, t1hNs, t1lNs]

theorem distinct_iff_pair_ne (f : Nat) : distinct f = true ↔ zeroPair f ≠ onePair f := by
  rw [distinct_iff_ticks_ne, ← not_and_or, not_iff_not]
  simp [zeroPair, onePair, CalReg.calibrated, CalReg.level, CalReg.targetNs, mkPulse, t0hNs, t0lNs, t1hNs, t1lNs]

theorem zeroPair_eq_onePair {f : Nat} (h : distinct f = false) : zeroPair f = onePair f := by
  by_contra hne
  simp [(distinct_iff_pair_ne f).mpr hne] at h

/-- The pulses determine the packed value exactly when `Distinct` (20_memory.md R62). -/
theorem distinct_iff_pixelTrain_injective (f : Nat) :
    distinct f = true ↔
      ∀ v v' : BitVec 24, pixelTrain (zeroPair f) (onePair f) v = pixelTrain (zeroPair f) (onePair f) v' → v = v' := by
  constructor
  · intro h v v' htrain
    exact pixelTrain_injective ((distinct_iff_pair_ne f).mp h) htrain
  · intro hinj
    refine (distinct_iff_pair_ne f).mpr fun heq => absurd (hinj 0#24 1#24 ?_) (by decide)
    rw [heq]
    exact pixelTrain_same_pair _ _ _

section
variable (r g b : Byte) {i : Nat} (hi : i < 8)
include hi

theorem getLsbD_pack_green : (pack r g b).getLsbD (16 + i) = g.getLsbD i := by
  rw [getLsbD_pack _ _ _ _ (by omega), if_pos (by omega), Nat.add_sub_cancel_left]

theorem getLsbD_pack_red : (pack r g b).getLsbD (8 + i) = r.getLsbD i := by
  rw [getLsbD_pack _ _ _ _ (by omega), if_neg (by omega), if_pos (by omega), Nat.add_sub_cancel_left]

theorem getLsbD_pack_blue : (pack r g b).getLsbD i = b.getLsbD i := by
  rw [getLsbD_pack _ _ _ _ (by omega), if_neg (by omega), if_neg (by omega)]

end

theorem pack_injective {r g b r' g' b' : Byte} (h : pack r g b = pack r' g' b') : r = r' ∧ g = g' ∧ b = b' := by
  refine ⟨BitVec.eq_of_getLsbD_eq fun i hi => ?_, BitVec.eq_of_getLsbD_eq fun i hi => ?_,
    BitVec.eq_of_getLsbD_eq fun i hi => ?_⟩
  · rw [← getLsbD_pack_red r g b hi, h, getLsbD_pack_red r' g' b' hi]
  · rw [← getLsbD_pack_green r g b hi, h, getLsbD_pack_green r' g' b' hi]
  · rw [← getLsbD_pack_blue r g b hi, h, getLsbD_pack_blue r' g' b' hi]

/-- From the threshold of calibration every pulse of a pixel train lasts (40_construct.md R115(b)). -/
theorem calibrated_pixelTrain_sendable {f : Nat} (hf : 1428572 ≤ f) (v : BitVec 24) :
    Train.sendable (pixelTrain (zeroPair f) (onePair f) v) = true := by
  have lasts : ∀ c : CalReg, 1 ≤ (c.calibrated f).ticks := fun c => by
    have := CalReg.calibrated_fits (maxTicks := none) (by simp [calibrationOverflows_eq_false_iff])
      ((calibrationZero_eq_false_iff f).mpr hf) c
    simpa [Pulse.fits] using this
  refine List.all_eq_true.mpr fun p hp => decide_eq_true ?_
  have hmem : p = CalReg.t0h.calibrated f ∨ p = CalReg.t0l.calibrated f ∨ p = CalReg.t1h.calibrated f ∨
      p = CalReg.t1l.calibrated f := by
    simpa [Pair.pulses, zeroPair, onePair, or_assoc] using mem_pixelTrain hp
  rcases hmem with rfl | rfl | rfl | rfl <;> exact lasts _

theorem calibrated_pixelTrain_alternates (f : Nat) (v : BitVec 24) :
    Train.alternatesFrom .high (pixelTrain (zeroPair f) (onePair f) v) = true := by
  have hshape := pixelTrain_pixelShaped (zeroPair f) (onePair f) v ⟨rfl, rfl⟩ ⟨rfl, rfl⟩
  simpa [Train.pixelShaped] using hshape

/-- Settles O15: the wire shows the pulses, the pulses give the packed value, the packed value gives the colour. -/
theorem wireSignalIdentifiesColour : Obligations.WireSignalIdentifiesColour := by
  refine fun f hf => ⟨fun hdistinct r g b r' g' b' hwire => ?_, fun hsame r g b r' g' b' => ?_⟩
  · have htrain : pixelTrain (zeroPair f) (onePair f) (pack r g b) =
        pixelTrain (zeroPair f) (onePair f) (pack r' g' b') :=
      eq_of_expand_eq (calibrated_pixelTrain_alternates f _) (calibrated_pixelTrain_alternates f _)
        (calibrated_pixelTrain_sendable hf _) (calibrated_pixelTrain_sendable hf _) hwire
    exact pack_injective ((distinct_iff_pixelTrain_injective f).mp hdistinct _ _ htrain)
  · change expand (pixelTrain (zeroPair f) (onePair f) _) = expand (pixelTrain (zeroPair f) (onePair f) _)
    rw [zeroPair_eq_onePair hsame, pixelTrain_same_pair]

end Sys2Proof.Machine
end

section
/-! The selections of a colour (20_memory.md R62). -/

namespace Sys2Proof.Machine

theorem zipIdx_map_range {α : Type} (f : Nat → α) (n : Nat) :
    ((List.range n).map f).zipIdx = (List.range n).map fun k => (f k, k) := by
  induction n with
  | zero => rfl
  | succ n ih => simp [List.range_succ, List.zipIdx_append, ih]

/-- The binary digits below place `n` sum to the value modulo `2 ^ n`. -/
theorem sum_testBit_shiftLeft (x n : Nat) :
    ∑ i ∈ Finset.range n, (x.testBit i).toNat <<< i = x % 2 ^ n := by
  induction n with
  | zero => simp [Nat.mod_one]
  | succ n ih =>
    rw [Finset.sum_range_succ, ih, Nat.mod_pow_succ, Nat.toNat_testBit, Nat.shiftLeft_eq, Nat.mul_comm]

theorem decodeSelections_selections (v : BitVec 24) : decodeSelections (selections v) = v.toNat := by
  calc decodeSelections (selections v)
      = ∑ k ∈ Finset.range nBits, (v.toNat.testBit (nBits - 1 - k)).toNat <<< (nBits - 1 - k) := by
        rw [decodeSelections, selections, zipIdx_map_range, List.map_map]
        rfl
    _ = ∑ i ∈ Finset.range nBits, (v.toNat.testBit i).toNat <<< i :=
        Finset.sum_range_reflect (fun i => (v.toNat.testBit i).toNat <<< i) nBits
    _ = v.toNat % 2 ^ nBits := sum_testBit_shiftLeft _ _
    _ = v.toNat := Nat.mod_eq_of_lt v.isLt

/-- Settles O14: the selections are the binary digits; the pulses show them when the two pairs differ. -/
theorem selectionsDecodeToPack : Obligations.SelectionsDecodeToPack :=
  ⟨fun r g b => decodeSelections_selections (pack r g b), distinct_iff_ticks_ne, distinct_iff_pixelTrain_injective,
    by decide⟩

end Sys2Proof.Machine
end

section
/-! The slots `SET_PIXEL` fills (20_memory.md R56), and the train it reads out of them (R60). -/

namespace Sys2Proof.Machine

/-- With both pairs readable the scan fills every slot `k`, with the pair of packed bit `23 - k`. -/
theorem scanFill_slots {s : State} (v : BitVec 24) (before : TrainBuffer) {p0 p1 : Pair}
    (h0 : s.select false = some p0) (h1 : s.select true = some p1) :
    ∃ buf, scanFill s v 24 before = some buf ∧
      ∀ k, k < 24 → memRead buf k = some (if v.getLsbD (23 - k) then p1 else p0) := by
  have hsel : ∀ bit, s.select bit = some (if bit then p1 else p0) := fun bit => by cases bit <;> simp [h0, h1]
  rcases scanFill_spec s v 24 before le_rfl with ⟨i, -, hnone, -⟩ | ⟨buf, hfill, hread, -⟩
  · simp [hsel] at hnone
  · refine ⟨buf, hfill, fun k hk => ?_⟩
    obtain ⟨-, hslot⟩ := hread (23 - k) (by omega)
    rwa [show 23 - (23 - k) = k by omega, hsel] at hslot

/-- Settles O10: the scan's slots, with the packed bits of each channel, and the pulses of the assembled train. -/
theorem slotMap : Obligations.SlotMap := by
  intro s r g b before p0 p1 h0 h1
  obtain ⟨buf, hfill, hslot⟩ := scanFill_slots (pack r g b) before h0 h1
  obtain ⟨buf', hfill', htrain⟩ := scanFill_assemble s (pack r g b) before p0 p1 h0 h1
  obtain rfl : buf = buf' := Option.some.inj (hfill.symm.trans hfill')
  refine ⟨buf, hfill, hslot, fun k hk => ⟨?_, ?_, ?_⟩, _, htrain, pixelTrain_length _ _ _, fun k p hk hp => ?_⟩
  · rw [hslot k (by omega), show 23 - k = 16 + (7 - k) by omega, getLsbD_pack_green r g b (by omega)]
  · rw [hslot (8 + k) (by omega), show 23 - (8 + k) = 8 + (7 - k) by omega, getLsbD_pack_red r g b (by omega)]
  · rw [hslot (16 + k) (by omega), show 23 - (16 + k) = 7 - k by omega, getLsbD_pack_blue r g b (by omega)]
  · obtain rfl := Option.some.inj ((hslot k hk).symm.trans hp)
    exact getElem?_pixelTrain p0 p1 (pack r g b) hk

section
variable {s s' : State}

theorem trainBuffer_ext {buf buf' : TrainBuffer} (h : ∀ k, k < 24 → memRead buf k = memRead buf' k) :
    buf = buf' :=
  Vector.ext fun k hk => by simpa [memRead, hk] using h k hk

/-- A full scan overwrites every slot, so it depends on the selected pairs only, not on the old buffer. -/
theorem scanFill_congr (hsel : ∀ bit, s.select bit = s'.select bit) (v : BitVec 24) (buf buf' : TrainBuffer) :
    scanFill s v 24 buf = scanFill s' v 24 buf' := by
  rcases scanFill_spec s v 24 buf le_rfl with ⟨i, hi, hnone, hfill⟩ | ⟨out, hfill, hread, -⟩ <;>
  rcases scanFill_spec s' v 24 buf' le_rfl with ⟨i', hi', hnone', hfill'⟩ | ⟨out', hfill', hread', -⟩
  · rw [hfill, hfill']
  · exact absurd (hsel _ ▸ hnone) (hread' i hi).1
  · exact absurd (hsel _ ▸ hnone') (hread i' hi').1
  · have hslots : out = out' := trainBuffer_ext fun k hk => by
      have hslot := (hread (23 - k) (by omega)).2
      have hslot' := (hread' (23 - k) (by omega)).2
      rw [show 23 - (23 - k) = k by omega] at hslot hslot'
      rw [hslot, hslot', hsel]
    rw [hfill, hfill', hslots]

/-- The train `SET_PIXEL` makes of the packed value `v`; `none` if it comes to a register it cannot read. -/
def State.filledTrain (v : BitVec 24) (s : State) : Option Train :=
  (scanFill s v nBits s.train).bind assembleTrain

theorem State.filledTrain_congr (hsel : ∀ bit, s.select bit = s'.select bit) (v : BitVec 24) :
    s.filledTrain v = s'.filledTrain v :=
  congrArg (·.bind assembleTrain) (scanFill_congr hsel v s.train s'.train)

theorem State.IdleInv.filledTrain (h : s.IdleInv) (v : BitVec 24) :
    s.filledTrain v = some (pixelTrain (zeroPair s.ticksHz) (onePair s.ticksHz) v) := by
  obtain ⟨select0, select1⟩ := h.select
  obtain ⟨buf, hfill, htrain⟩ := scanFill_assemble s v s.train _ _ select0 select1
  simp only [State.filledTrain, hfill, Option.bind_some, htrain, zeroPair, onePair]

theorem pixelFill_of_filledTrain_none {v : BitVec 24} (h : s.filledTrain v = none) :
    pixelFill v s = refuse .unwrittenRead s := by
  unfold pixelFill
  cases hfill : scanFill s v nBits s.train with
  | none => rfl
  | some buf =>
    have htrain : assembleTrain buf = none := by simpa [State.filledTrain, hfill] using h
    simp [htrain]

theorem pixelFill_of_filledTrain_some {v : BitVec 24} {tr : Train} (h : s.filledTrain v = some tr) :
    ∃ buf, pixelFill v s = pixelTransmit tr (s.setTrain buf) := by
  obtain ⟨buf, hfill, htrain⟩ := Option.bind_eq_some_iff.mp h
  exact ⟨buf, by simp [pixelFill, hfill, htrain]⟩

theorem exec_setPixel_of_idle (r g b : Byte) (hp : s.phase = .idle) :
    exec (.setPixel r g b) s = pixelFill (pack r g b) s := by
  simp [exec, execSetPixel, hp]

/-- A `SET_PIXEL` with a Driver that makes a train sends it (41_set_pixel.md R145, R147). -/
theorem exec_setPixel_of_filledTrain {r g b : Byte} {tr : Train} (hp : s.phase = .idle) (htx : s.draws.txOk = true)
    (h : s.filledTrain (pack r g b) = some tr) :
    exec (.setPixel r g b) s = .next ((s.afterPixel (.sent tr)).respond .ok) := by
  obtain ⟨buf, hfill⟩ := pixelFill_of_filledTrain_some h
  rw [exec_setPixel_of_idle r g b hp, hfill]
  simp only [pixelTransmit, State.transmit, State.setPhase_draws, State.setTrain_draws, htx]
  rfl

/-- What an accepted transmission of `SET_PIXEL` adds to the wire: the train it makes, or nothing where it makes none. -/
theorem wire_of_exec_setPixel {t : State} {r g b : Byte} (hp : s.phase = .idle) (htx : s.draws.txOk = true)
    (hexec : exec (.setPixel r g b) s = .next t) :
    t.wire = s.wire ++ ((s.filledTrain (pack r g b)).map WireEvent.sent).toList := by
  cases htrain : s.filledTrain (pack r g b) with
  | none =>
    rw [exec_setPixel_of_idle r g b hp, pixelFill_of_filledTrain_none htrain] at hexec
    cases hexec
    simp
  | some tr =>
    rw [exec_setPixel_of_filledTrain hp htx htrain] at hexec
    cases hexec
    rfl

theorem State.select_congr (h0h : s.t0h = s'.t0h) (h0l : s.t0l = s'.t0l) (h1h : s.t1h = s'.t1h)
    (h1l : s.t1l = s'.t1l) (bit : Bool) : s.select bit = s'.select bit := by
  cases bit <;> simp [State.select, State.readCal, h0h, h0l, h1h, h1l]

end

/-- Settles O28: the train depends on the four registers and the colour only, and the first `SET_PIXEL` leaves the
registers as they were. -/
theorem sameColourSameTrain : Obligations.SameColourSameTrain := by
  refine ⟨fun s s' t t' r g b hp hp' htx htx' h0h h0l h1h h1l hexec hexec' => ?_,
    fun s t u r g b hinv hp htx hexec hexec' => ?_⟩
  · have hsame := State.filledTrain_congr (State.select_congr h0h h0l h1h h1l) (pack r g b)
    exact ⟨_, wire_of_exec_setPixel hp htx hexec, hsame ▸ wire_of_exec_setPixel hp' htx' hexec'⟩
  · have htrain := (hinv.idle hp).filledTrain (pack r g b)
    have heff := commandEffect_of_exec hexec
    obtain ⟨phase, t0h, t0l, t1h, t1l, -, -, -⟩ := heff.sameDriver_of_setPixel
    obtain ⟨-, -, draws, -⟩ := heff.frame
    have hagain := (State.filledTrain_congr (State.select_congr t0h t0l t1h t1l) (pack r g b)).trans htrain
    have hfirst := wire_of_exec_setPixel hp htx hexec
    have hsecond := wire_of_exec_setPixel (phase.trans hp) (draws ▸ htx) hexec'
    rw [htrain] at hfirst
    rw [hagain, hfirst] at hsecond
    exact ⟨_, hfirst, by simpa using hsecond⟩

end Sys2Proof.Machine
end

section
/-! Use of the block's pin and channel by others, and changes of its clock (20_memory.md R57,
70_reset_and_hazards.md R208, R210). -/

namespace Sys2Proof.Machine

theorem pinDriven_eq (p : PinToken) (s : State) :
    pinDriven p s = .next (if p = s.inst.pin then s.markRefused .foreignAccess else s) := by
  unfold pinDriven
  split <;> rfl

theorem channelUsed_eq (c : ChannelToken) (s : State) :
    channelUsed c s = .next (if c = s.inst.channel then s.markRefused .foreignAccess else s) := by
  unfold channelUsed
  split <;> rfl

theorem clockChange_eq (hz : Nat) (s : State) :
    clockChange hz s =
      .next (if s.phase = .unbound then s.setTicksHz hz
        else if hz = s.ticksHz then s else s.markRefused .foreignAccess) := by
  cases hp : s.phase
  case unbound => simp [clockChange, hp]
  all_goals by_cases hsame : hz = s.ticksHz <;> simp [clockChange, hp, hsame, refuse]

/-- Settles O46: the step is the event's equation in the state without the event. -/
theorem foreignAccessRefused : Obligations.ForeignAccessRefused := fun s p c hz rest =>
  ⟨fun hin => (step_of_inputs s _ rest hin).trans (pinDriven_eq p (s.setInputs rest)),
    fun hin => (step_of_inputs s _ rest hin).trans (channelUsed_eq c (s.setInputs rest)),
    fun hin => (step_of_inputs s _ rest hin).trans (clockChange_eq hz (s.setInputs rest))⟩

end Sys2Proof.Machine
end

section
/-! The command map (30_encoding.md R87, R94, R96): what the decoder answers for each word, and the port's answer to a
reserved one. -/

namespace Sys2Proof

/-- Format C of 30_encoding.md R87: the four fields, from the top, are the whole word. -/
theorem fields_append (w : Word) : opField w ++ redField w ++ greenField w ++ blueField w = w := by
  unfold opField redField greenField blueField
  rw [BitVec.extractLsb'_append_extractLsb'_eq_extractLsb' (show 24 = 16 + 8 from rfl),
    BitVec.extractLsb'_append_extractLsb'_eq_extractLsb' (show 16 = 8 + 8 from rfl),
    BitVec.extractLsb'_append_extractLsb'_eq_extractLsb' (show 8 = 0 + 8 from rfl)]
  exact BitVec.extractLsb'_eq_self

/-- The operation code and the operand are the whole word (30_encoding.md R87). -/
theorem opField_append_argField (w : Word) : opField w ++ argField w = w := by
  unfold opField argField
  rw [BitVec.extractLsb'_append_extractLsb'_eq_extractLsb' (show 24 = 0 + 24 from rfl)]
  exact BitVec.extractLsb'_eq_self

/-- The one word of `NEW` is the one with `op` 0x01 and the reserved operand zero (30_encoding.md R94, R96). -/
theorem eq_encode_new_iff (w : Word) : w = encode .new ↔ opField w = 0x01#8 ∧ argField w = 0#24 := by
  constructor
  · rintro rfl
    decide
  · rintro ⟨hop, harg⟩
    rw [← opField_append_argField w, hop, harg]
    rfl

theorem encode_setPixel_of_opField {w : Word} (hop : opField w = 0x02#8) :
    encode (.setPixel (redField w) (greenField w) (blueField w)) = w := by
  rw [encode, ← hop]
  exact fields_append w

/-- `op` 0x02 is `SET_PIXEL` of the colour in the three fields (30_encoding.md R95). -/
theorem decode_of_opField_two {w : Word} (hop : opField w = 0x02#8) :
    decode w = .ok (.setPixel (redField w) (greenField w) (blueField w)) := by
  have hnew : ¬ selectsRow newMask newMatch w = true := by
    rw [selectsRow_new_iff]
    rintro rfl
    exact absurd hop (by decide)
  rw [decode, if_neg hnew, if_pos ((selectsRow_setPixel_iff w).mpr hop)]

/-- Everything the decoder can answer: the row `NEW`, the row `SET_PIXEL`, or no command for a word in neither
(30_encoding.md R94, R96). -/
theorem decode_cases (w : Word) :
    (w = encode .new ∧ decode w = .ok .new) ∨
    (opField w = 0x02#8 ∧ decode w = .ok (.setPixel (redField w) (greenField w) (blueField w))) ∨
    (w ≠ encode .new ∧ opField w ≠ 0x02#8 ∧ ∃ x, decode w = .error x) := by
  by_cases hnew : w = encode .new
  · exact .inl ⟨hnew, by rw [hnew]; decide⟩
  by_cases hop : opField w = 0x02#8
  · exact .inr (.inl ⟨hop, decode_of_opField_two hop⟩)
  have hrowNew : ¬ selectsRow newMask newMatch w = true := mt (selectsRow_new_iff w).mp hnew
  have hrowPixel : ¬ selectsRow setPixelMask setPixelMatch w = true := mt (selectsRow_setPixel_iff w).mp hop
  refine .inr (.inr ⟨hnew, hop, ?_⟩)
  rw [decode, if_neg hrowNew, if_neg hrowPixel]
  split
  · exact ⟨_, rfl⟩
  · exact ⟨_, rfl⟩

/-- A decoded command is the one whose encoding was read: no bit of the word is dropped. -/
theorem encode_of_decode {w : Word} {i : Instr} (h : decode w = .ok i) : encode i = w := by
  rcases decode_cases w with ⟨hword, hnew⟩ | ⟨hop, hpixel⟩ | ⟨-, -, x, herror⟩
  · rw [hnew] at h
    cases h
    exact hword.symm
  · rw [hpixel] at h
    cases h
    exact encode_setPixel_of_opField hop
  · rw [herror] at h
    cases h

theorem decode_encode (i : Instr) : decode (encode i) = .ok i := by
  cases i with
  | new => decide
  | setPixel r g b =>
    obtain ⟨hop, hred, hgreen, hblue⟩ := fields_encode_setPixel r g b
    rw [decode_of_opField_two hop, hred, hgreen, hblue]

/-- Settles O1: each direction is one of the two round trips. -/
theorem decodeIffEncode : Obligations.DecodeIffEncode :=
  fun i _ => ⟨fun hdecode => (encode_of_decode hdecode).symm, fun hword => hword ▸ decode_encode i⟩

/-- Settles O2: the fields of the statement are those the decoder reads. -/
theorem everyColourWordIsLegal : Obligations.EveryColourWordIsLegal :=
  fun _ hop => decode_of_opField_two hop

/-- A word is reserved when it lies in neither row of the command map. -/
theorem decode_eq_error_iff (w : Word) :
    (∃ x, decode w = .error x) ↔ w ≠ encode .new ∧ opField w ≠ 0x02#8 := by
  constructor
  · rintro ⟨x, herror⟩
    refine ⟨?_, fun hop => ?_⟩
    · rintro rfl
      simp [decode_encode] at herror
    · simp [decode_of_opField_two hop] at herror
  · rintro ⟨hnew, hop⟩
    rcases decode_cases w with ⟨hword, -⟩ | ⟨hpixel, -⟩ | ⟨-, -, herror⟩
    · exact absurd hword hnew
    · exact absurd hpixel hop
    · exact herror

/-- The list of 30_encoding.md R96: below 3 an operation code is one of 0x00, 0x01, 0x02. -/
theorem decode_eq_error_iff_reserved (w : Word) :
    (∃ x, decode w = .error x) ↔
      opField w = 0x00#8 ∨ 3 ≤ (opField w).toNat ∨ (opField w = 0x01#8 ∧ argField w ≠ 0#24) := by
  rw [decode_eq_error_iff, ne_eq, eq_encode_new_iff, not_and]
  have small : ∀ op : BitVec 8, op = 0x00#8 ∨ op = 0x01#8 ∨ op = 0x02#8 ∨ 3 ≤ op.toNat := by
    intro op
    bv_omega
  rcases small (opField w) with hop | hop | hop | hop
  · simp [hop]
  · simp [hop]
  · simp [hop]
  · have hone : opField w ≠ 0x01#8 := by bv_omega
    have htwo : opField w ≠ 0x02#8 := by bv_omega
    simp [hop, hone, htwo]

end Sys2Proof

namespace Sys2Proof.Machine

/-- At a command port that is not busy a reserved word is refused, under the draws it comes with. -/
theorem step_of_reserved {s : State} {w : Word} {d : Draws} {rest : List HostEvent} {x : DecodeError}
    (hin : s.inputs = .command w d :: rest) (hp : s.phase ≠ .transmitting) (hdecode : decode w = .error x) :
    step s = refuse .reservedCommand ((s.setInputs rest).setDraws d) := by
  have hfree : ((s.setInputs rest).setDraws d).busy = false := by simpa [State.busy] using hp
  rw [step_of_inputs s _ rest hin]
  simp [handleEvent, offerCommand, hfree, hdecode]

/-- Settles O4: the reserved words by their fields, and the port's refusal, whose mark is the state written out. -/
theorem reservedWordRefused : Obligations.ReservedWordRefused :=
  fun w => ⟨decode_eq_error_iff_reserved w, fun _ _ _ ⟨_, hdecode⟩ hin hp => step_of_reserved hin hp hdecode⟩

end Sys2Proof.Machine
end

section
/-! Responses (30_encoding.md R88): their codes, and which of them each command can return. -/

namespace Sys2Proof

theorem responseOfCode_responseCode (r : Machine.Result) : responseOfCode (responseCode r) = some r := by
  cases r with
  | ok => rfl
  | err e => cases e <;> rfl

/-- Code 3 is never produced: it stands for no result. -/
theorem responseCode_ne_three (r : Machine.Result) : responseCode r ≠ 3#2 := by
  intro h
  have hthree := responseOfCode_responseCode r
  rw [h, show responseOfCode 3#2 = none from rfl] at hthree
  cases hthree

end Sys2Proof

namespace Sys2Proof.Machine

/-- A command gives one response, or is refused and gives none (30_encoding.md R88, 60_exceptions.md R185). -/
theorem CommandEffect.one_response {i : Instr} {s t : State} (heff : CommandEffect i s t) :
    (t.refusals = s.refusals ∧ ∃ r, t.results = s.results ++ [r]) ∨
    (t.refusals ≠ s.refusals ∧ t.results = s.results) := by
  rcases heff with ⟨why, rfl⟩ | ⟨-, -, rfl | rfl | ⟨-, -, rfl⟩⟩ | ⟨_, _, _, -, -, ⟨tr, -, rfl⟩ | rfl⟩
  · exact .inr ⟨by simp, rfl⟩
  all_goals exact .inl ⟨rfl, _, rfl⟩

/-- `SET_PIXEL` configures nothing, so it never returns `HardwareConfigError` (60_exceptions.md R171). -/
theorem CommandEffect.result_of_setPixel {r g b : Byte} {s t : State} {result : Result}
    (heff : CommandEffect (.setPixel r g b) s t) (hresult : t.results = s.results ++ [result]) :
    result ≠ .err .hardwareConfigError := by
  rcases heff with ⟨why, rfl⟩ | ⟨hi, -⟩ | ⟨-, -, -, -, -, ⟨tr, -, rfl⟩ | rfl⟩
  · simp at hresult
  · cases hi
  · obtain rfl : .ok = result := by simpa using hresult
    decide
  · obtain rfl : .err .transmitError = result := by simpa using hresult
    decide

/-- `SET_PIXEL` of the Driver that `NEW` constructs ends as the draw `tx_ok` says. -/
theorem exec_setPixel_constructed (r g b : Byte) (s : State) (d : Draws) :
    ∃ t, exec (.setPixel r g b) (s.constructed.setDraws d) = .next t ∧
      t.results = s.results ++ [if d.txOk then .ok else .err .transmitError] := by
  rw [exec, execSetPixel_idle _ r g b (zeroPair s.ticksHz) (onePair s.ticksHz) rfl rfl rfl, State.setDraws_draws]
  cases d.txOk
  · exact ⟨_, rfl, rfl⟩
  · exact ⟨_, rfl, rfl⟩

/-- From reset the draws alone decide what `NEW` returns (40_construct.md R117, R118). -/
theorem exec_new_can_return (r : Result) : ∃ s t, exec .new s = .next t ∧ t.results = s.results ++ [r] := by
  cases r with
  | ok => exact ⟨State.reset.setDraws ⟨true, true, true⟩, _, rfl, rfl⟩
  | err e =>
    cases e with
    | hardwareConfigError => exact ⟨State.reset.setDraws ⟨false, true, true⟩, _, rfl, rfl⟩
    | transmitError => exact ⟨State.reset.setDraws ⟨true, true, false⟩, _, rfl, rfl⟩

/-- `SET_PIXEL` returns `Ok` and `TransmitError`, and nothing else. -/
theorem exec_setPixel_can_return_iff (r g b : Byte) (result : Result) :
    result ≠ .err .hardwareConfigError ↔
      ∃ s t, exec (.setPixel r g b) s = .next t ∧ t.results = s.results ++ [result] := by
  constructor
  · intro hresult
    cases result with
    | ok => exact ⟨_, exec_setPixel_constructed r g b State.reset ⟨true, true, true⟩⟩
    | err e =>
      cases e with
      | hardwareConfigError => exact absurd rfl hresult
      | transmitError => exact ⟨_, exec_setPixel_constructed r g b State.reset ⟨true, true, false⟩⟩
  · rintro ⟨s, t, hexec, hresult⟩
    exact (commandEffect_of_exec hexec).result_of_setPixel hresult

/-- Settles O5: the codes, what each command can return, and the one response of a command that is not refused. -/
theorem responseWord : Obligations.ResponseWord :=
  ⟨⟨rfl, rfl, rfl, responseCode_ne_three, responseOfCode_responseCode, rfl⟩, exec_new_can_return,
    exec_setPixel_can_return_iff, fun _ _ _ hexec => (commandEffect_of_exec hexec).one_response⟩

end Sys2Proof.Machine
end

section
/-! The conversion to ticks (30_encoding.md R89 to R91): rounding to the nearest tick, ties, zeros, tolerance. -/

namespace Sys2Proof.Machine

theorem ticks_eq (ns f : Nat) : ticks ns f = (ns * f + 500000000) / 1000000000 := rfl

theorem isTie_iff (ns f : Nat) : isTie ns f = true ↔ ns * f % 1000000000 = 500000000 := by
  simp [isTie, nsPerS]

/-- A tie is an odd number of half ticks (30_encoding.md R90(a)). -/
theorem exists_odd_half_ticks_iff_isTie (ns f : Nat) :
    (∃ k, 2 * (ns * f) = (2 * k + 1) * 1000000000) ↔ isTie ns f = true := by
  rw [isTie_iff]
  constructor
  · rintro ⟨k, hk⟩
    omega
  · intro htie
    exact ⟨ns * f / 1000000000, by omega⟩

/-- A tie goes up (30_encoding.md R89, 92_eei_decisions.md D7). -/
theorem ticks_of_odd_half_ticks {ns f k : Nat} (hk : 2 * (ns * f) = (2 * k + 1) * 1000000000) :
    ticks ns f = k + 1 := by
  obtain ⟨lower, upper⟩ := ticks_bounds ns f
  omega

/-- Without a tie, rounding a half down gives the same count (30_encoding.md R90(a)). -/
theorem ticks_eq_half_down {ns f : Nat} (htie : ¬ isTie ns f = true) :
    ticks ns f = (ns * f + 499999999) / 1000000000 := by
  rw [isTie_iff] at htie
  rw [ticks_eq]
  omega

theorem ticks_eq_zero_iff (ns f : Nat) : ticks ns f = 0 ↔ ns * f < 500000000 := by
  rw [ticks_eq, Nat.div_eq_zero_iff_lt (by decide)]
  omega

/-- Ticks of a positive duration have no upper bound over the frequencies (30_encoding.md R90). -/
theorem exists_lt_ticks {ns : Nat} (hns : 0 < ns) (bound : Nat) : ∃ f, bound < ticks ns f := by
  refine ⟨(bound + 1) * 1000000000, ?_⟩
  have hlarge : (bound + 1) * 1000000000 ≤ ns * ((bound + 1) * 1000000000) := Nat.le_mul_of_pos_left _ hns
  obtain ⟨-, upper⟩ := ticks_bounds ns ((bound + 1) * 1000000000)
  omega

/-- The four targets of 10_state.md R21, written out, are those of the four registers. -/
theorem forall_target_iff (p : Nat → Prop) :
    (∀ ns ∈ [350, 800, 700, 600], p ns) ↔ ∀ r ∈ CalReg.all, p r.targetNs :=
  List.forall_mem_map (f := CalReg.targetNs) (l := CalReg.all)

theorem noTie_iff (f : Nat) : noTie f = true ↔ ∀ ns ∈ [350, 800, 700, 600], ¬ isTie ns f = true := by
  rw [forall_target_iff]
  simp [noTie]

/-- The thresholds of 30_encoding.md R90 below which a register's duration is zero ticks. -/
theorem ticks_targets_eq_zero_iff (f : Nat) :
    (ticks 350 f = 0 ↔ f ≤ 1428571) ∧ (ticks 800 f = 0 ↔ f ≤ 624999) ∧ (ticks 700 f = 0 ↔ f ≤ 714285) ∧
    (ticks 600 f = 0 ↔ f ≤ 833333) := by
  simp only [ticks_eq_zero_iff]
  omega

theorem durations_eq_map_ticks (f : Nat) : durations f = [350, 800, 700, 600].map (ticks · f) := rfl

/-- The four durations all last exactly when calibration passes the check of 40_construct.md R115(b). -/
theorem ticks_targets_pos_iff (f : Nat) : (∀ ns ∈ [350, 800, 700, 600], 1 ≤ ticks ns f) ↔ 1428572 ≤ f := by
  rw [← calibrationZero_eq_false_iff, calibrationZero, durations_eq_map_ticks, List.any_eq_false, List.forall_mem_map]
  simp only [beq_iff_eq, Nat.one_le_iff_ne_zero, ne_eq]

/-- Settles O7, clause by clause; the two ties of the targets are evaluated. -/
theorem ticksRoundsToNearest : Obligations.TicksRoundsToNearest :=
  ⟨ticks_eq, exists_odd_half_ticks_iff_isTie, fun _ _ _ => ticks_of_odd_half_ticks, by decide,
    fun f hno ns hns => ticks_eq_half_down ((noTie_iff f).mp hno ns hns), ticks_eq_zero_iff, ticks_targets_eq_zero_iff,
    ticks_targets_pos_iff, fun _ bound hns => exists_lt_ticks hns bound,
    fun ns => (ticks_eq_zero_iff ns 0).mpr (by simp)⟩

theorem ticks_mono_frequency (ns : Nat) {f1 f2 : Nat} (h : f1 ≤ f2) : ticks ns f1 ≤ ticks ns f2 :=
  Nat.div_le_div_right (Nat.add_le_add_right (Nat.mul_le_mul_left ns h) _)

theorem ticks_mono_duration {ns1 ns2 : Nat} (f : Nat) (h : ns1 ≤ ns2) : ticks ns1 f ≤ ticks ns2 f :=
  Nat.div_le_div_right (Nat.add_le_add_right (Nat.mul_le_mul_right f h) _)

theorem ticks_exact {ns f : Nat} (h : 1000000000 ∣ ns * f) : ticks ns f * 1000000000 = ns * f := by
  obtain ⟨lower, upper⟩ := ticks_bounds ns f
  omega

/-- Every target is a multiple of 50 ns, so a multiple of 20 MHz realises it exactly (30_encoding.md R91(c)). -/
theorem ticks_target_exact {f ns : Nat} (hf : 20000000 ∣ f) (hns : ns ∈ [350, 800, 700, 600]) :
    ticks ns f * 1000000000 = ns * f := by
  have hmultiple : ∀ ns ∈ [350, 800, 700, 600], 50 ∣ ns := by decide
  exact ticks_exact (Nat.mul_dvd_mul (hmultiple ns hns) hf)

/-- The rounding error is at most half a tick (30_encoding.md R91). -/
theorem ticks_error_le (ns f : Nat) :
    (((ticks ns f * 1000000000 : Nat) : Int) - ((ns * f : Nat) : Int)).natAbs ≤ 500000000 := by
  obtain ⟨lower, upper⟩ := ticks_bounds ns f
  omega

theorem inTol_iff (f : Nat) : inTol f = true ↔ ∀ ns ∈ [350, 800, 700, 600],
    (((ticks ns f * 1000000000 : Nat) : Int) - ((ns * f : Nat) : Int)).natAbs ≤ 150 * f := by
  rw [forall_target_iff]
  simp [inTol, tolNs, nsPerS]

/-- From 3 333 334 half a tick is within the tolerance of 150 ns (30_encoding.md R91(e)). -/
theorem inTol_of_le {f : Nat} (hf : 3333334 ≤ f) : inTol f = true :=
  (inTol_iff f).mpr fun ns _ => (ticks_error_le ns f).trans (by omega)

/-- Settles O8, clause by clause; the sample frequencies are evaluated. -/
theorem ticksLaws : Obligations.TicksLaws :=
  ⟨fun ns _ _ => ticks_mono_frequency ns, by decide, fun _ _ f => ticks_mono_duration f, fun _ _ => ticks_exact,
    fun _ hf _ => ticks_target_exact hf, ticks_error_le, inTol_iff, fun _ => inTol_of_le, by decide⟩

end Sys2Proof.Machine
end

section
/-! The packed value (30_encoding.md R93), and the signals of a pixel train and of the reset train (R85, R86). -/

namespace Sys2Proof.Machine

/-- The three shifted channels do not overlap, so the packed value is green, red, blue side by side. -/
theorem pack_eq_append (r g b : Byte) : pack r g b = g ++ r ++ b := by
  refine BitVec.eq_of_getLsbD_eq fun i hi => ?_
  rw [getLsbD_pack r g b i hi, BitVec.getLsbD_append, BitVec.getLsbD_append]
  by_cases hgreen : 16 ≤ i
  · rw [if_pos hgreen, if_neg (by omega), if_neg (by omega), Nat.sub_sub]
  by_cases hred : 8 ≤ i
  · rw [if_neg hgreen, if_pos hred, if_neg (by omega), if_pos (by omega)]
  · rw [if_neg hgreen, if_neg hred, if_pos (by omega)]

theorem pack_toNat_eq_or (r g b : Byte) :
    (pack r g b).toNat = (g.toNat <<< 16) ||| (r.toNat <<< 8) ||| b.toNat := by
  rw [pack_eq_append, BitVec.toNat_append, BitVec.toNat_append, Nat.shiftLeft_or_distrib, ← Nat.shiftLeft_add]

/-- Each channel is below 256, so the OR of the shifted channels is their sum (30_encoding.md R93). -/
theorem pack_toNat_eq_add (r g b : Byte) :
    (pack r g b).toNat = 65536 * g.toNat + 256 * r.toNat + b.toNat := by
  rw [pack_eq_append, BitVec.toNat_append, BitVec.toNat_append, ← Nat.shiftLeft_add_eq_or_of_lt b.isLt,
    ← Nat.shiftLeft_add_eq_or_of_lt r.isLt, Nat.shiftLeft_eq, Nat.shiftLeft_eq]
  omega

/-- Settles O9: the packed value as OR, as sum, bit by bit, and the colour it determines. -/
theorem packIsGreenRedBlue : Obligations.PackIsGreenRedBlue :=
  ⟨pack_toNat_eq_or, pack_toNat_eq_add, getLsbD_pack, fun _ _ _ _ _ _ => pack_injective⟩

/-- Settles O11: the pulses of slot `m` stand at places `2 * m` and `2 * m + 1`, High then Low. -/
theorem pixelTrainAlternates : Obligations.PixelTrainAlternates := by
  intro p0 p1 v high0 low0 high1 low1
  refine ⟨pixelTrain_length p0 p1 v, fun k hk => ?_⟩
  have levels : ∀ bit : Bool, (if bit then p1 else p0).high.level = .high ∧ (if bit then p1 else p0).low.level = .low :=
    fun bit => by cases bit <;> simp [high0, low0, high1, low1]
  obtain ⟨m, hm⟩ := Nat.even_or_odd' k
  obtain ⟨hhigh, hlow⟩ := getElem?_pixelTrain p0 p1 v (k := m) (by omega)
  rcases hm with rfl | rfl
  · simp [hhigh, levels]
  · simp [hlow, levels]

/-- However a train of one level is divided into pulses, the wire holds that level for its ticks. -/
theorem expand_eq_replicate {l : Level} {tr : Train} (hlevel : ∀ p ∈ tr, p.level = l) :
    expand tr = List.replicate (trainTicks tr) l := by
  refine List.eq_replicate_iff.mpr ⟨expand_length tr, fun x hx => ?_⟩
  obtain ⟨p, hp, hx⟩ := List.mem_flatMap.mp hx
  exact (List.eq_of_mem_replicate hx).trans (hlevel p hp)

/-- Settles O13: the reset train is one such train, of 24 ticks at the idle level. -/
theorem resetTrainIsTwentyFourLowTicks : Obligations.ResetTrainIsTwentyFourLowTicks := by
  have hreset : expand resetTrain = List.replicate 24 .low := expand_eq_replicate (by decide)
  exact ⟨hreset, fun tr hlevel hticks => by rw [expand_eq_replicate hlevel, hticks, hreset]⟩

end Sys2Proof.Machine
end

section
/-! One reset train for each Driver (40_construct.md R119): construction sends it, and no later train of that Driver
carries a reset signal. -/

namespace Sys2Proof.Machine

/-- Only a `NEW` that completes brings a Driver into being (40_construct.md R117). -/
theorem CommandEffect.eq_constructed {i : Instr} {s t : State} (heff : CommandEffect i s t)
    (hunbound : s.phase = .unbound) (hidle : t.phase = .idle) : t = s.constructed.respond .ok := by
  rcases heff with ⟨why, rfl⟩ | ⟨-, -, rfl | rfl | ⟨-, -, rfl⟩⟩ | ⟨_, _, _, -, hbound, -⟩
  · simp [hunbound] at hidle
  · simp at hidle
  · simp at hidle
  · rfl
  · simp [hunbound] at hbound

/-- The step that constructs a Driver appends the reset train (40_construct.md R116). -/
theorem wire_of_step_constructing {s t : State} (hunbound : s.phase = .unbound) (hstep : step s = .next t)
    (hidle : t.phase = .idle) : t.wire = s.wire ++ [.sent resetTrain] := by
  rcases step_cases hstep with ⟨-, rfl⟩ | ⟨e, rest, -, hcase⟩
  · simp [hunbound] at hidle
  rcases hcase with ⟨-, why, rfl⟩ | ⟨-, rfl⟩ | ⟨-, hbound, -⟩ | ⟨hz, -, -, rfl⟩ | ⟨w, d, -, ⟨why, rfl⟩ | ⟨i, -, -, heff⟩⟩
  · simp [hunbound] at hidle
  · simp [hunbound] at hidle
  · simp [hunbound] at hbound
  · simp [hunbound] at hidle
  · simp [hunbound] at hidle
  · rw [heff.eq_constructed hunbound hidle]
    rfl

/-- The signal of a pixel train begins High, that of the reset train Low (30_encoding.md R85, R86). -/
theorem expand_calibrated_pixelTrain_ne_reset {f : Nat} (hf : 1428572 ≤ f) (v : BitVec 24) :
    expand (pixelTrain (zeroPair f) (onePair f) v) ≠ List.replicate 24 .low := by
  intro hreset
  have hfirst := head?_expand_ne_flip (l := .low) (calibrated_pixelTrain_alternates f v)
    (calibrated_pixelTrain_sendable hf v)
  simp [hreset] at hfirst

/-- From `s` to `t` the wire history only grew, and by no train that shows a reset signal, 24 ticks Low. -/
def State.AppendsNoReset (s t : State) : Prop :=
  ∃ evs, t.wire = s.wire ++ evs ∧ ∀ tr, .sent tr ∈ evs → expand tr ≠ List.replicate 24 .low

section
variable {s t u : State}

theorem State.AppendsNoReset.of_wire_eq (h : t.wire = s.wire) : s.AppendsNoReset t :=
  ⟨[], by simp [h], by simp⟩

theorem State.AppendsNoReset.trans (hst : s.AppendsNoReset t) (htu : t.AppendsNoReset u) : s.AppendsNoReset u := by
  obtain ⟨first, hfirst, hfirstNo⟩ := hst
  obtain ⟨later, hlater, hlaterNo⟩ := htu
  exact ⟨first ++ later, by rw [hlater, hfirst, List.append_assoc],
    fun tr hmem => (List.mem_append.mp hmem).elim (hfirstNo tr) (hlaterNo tr)⟩

theorem State.AppendsNoReset.of_sent {tr : Train} (hwire : t.wire = s.wire ++ [.sent tr])
    (hno : expand tr ≠ List.replicate 24 .low) : s.AppendsNoReset t := by
  refine ⟨_, hwire, fun tr' hmem => ?_⟩
  obtain rfl : tr' = tr := by simpa using hmem
  exact hno

/-- A failed transmission puts no train on the wire that anything is known of (20_memory.md R55). -/
theorem State.AppendsNoReset.of_unspecified (hwire : t.wire = s.wire ++ [.unspecified]) : s.AppendsNoReset t :=
  ⟨_, hwire, by simp⟩

/-- With a Driver `NEW` is refused, and `SET_PIXEL` sends a train of the calibrated pairs or fails. -/
theorem CommandEffect.appendsNoReset {i : Instr} (heff : CommandEffect i s t) (hinv : s.Inv) (hp : s.phase = .idle) :
    s.AppendsNoReset t := by
  rcases heff with ⟨why, rfl⟩ | ⟨-, hunbound, -⟩ | ⟨_, _, _, -, -, ⟨tr, htr, rfl⟩ | rfl⟩
  · exact .of_wire_eq rfl
  · simp [hp] at hunbound
  · have driver := hinv.idle hp
    obtain ⟨select0, select1⟩ := driver.select
    obtain rfl := htr _ _ select0 select1
    exact .of_sent rfl
      (expand_calibrated_pixelTrain_ne_reset ((calibrationZero_eq_false_iff _).mp driver.nonzero) _)
  · exact .of_unspecified rfl

theorem step_appendsNoReset (hinv : s.Inv) (hp : s.phase = .idle) (hstep : step s = .next t) :
    s.AppendsNoReset t := by
  rcases step_cases hstep with ⟨-, rfl⟩ | ⟨e, rest, -, hcase⟩
  · exact .of_wire_eq rfl
  rcases hcase with ⟨-, why, rfl⟩ | ⟨-, rfl⟩ | ⟨-, -, rfl⟩ | ⟨hz, -, -, rfl⟩ | ⟨w, d, -, ⟨why, rfl⟩ | ⟨i, -, -, heff⟩⟩
  · exact .of_wire_eq rfl
  · exact .of_wire_eq rfl
  · exact .of_wire_eq rfl
  · exact .of_wire_eq rfl
  · exact .of_wire_eq rfl
  · exact heff.appendsNoReset ((hinv.setInputs rest).setDraws d) hp

/-- A run with a Driver and without a `RELEASE` takes a first step and goes on in the same way. -/
theorem exists_step_of_run_succ_idle {n : Nat} (hinv : s.Inv) (hp : s.phase = .idle)
    (hrelease : HostEvent.release ∉ s.inputs.take (n + 1)) (hrun : Host.Core.run core (n + 1) s = .next u) :
    ∃ t, step s = .next t ∧ t.Inv ∧ t.phase = .idle ∧ HostEvent.release ∉ t.inputs.take n ∧
      Host.Core.run core n t = .next u := by
  obtain ⟨t, hstep, hrest⟩ := exists_step_of_run_succ hrun
  have same : s.SameDriver t := step_sameDriver_of_idle hp (fun rest hin => hrelease (by simp [hin])) hstep
  refine ⟨t, hstep, stepKeepsInvariant s t hinv hstep, same.phase.trans hp, fun hmem => ?_, hrest⟩
  rw [step_inputs hstep] at hmem
  exact hrelease (List.mem_of_mem_tail (by rwa [List.tail_take_eq_take_tail]))

end

theorem run_appendsNoReset (n : Nat) : ∀ {s u : State}, s.Inv → s.phase = .idle →
    HostEvent.release ∉ s.inputs.take n → Host.Core.run core n s = .next u → s.AppendsNoReset u := by
  induction n with
  | zero => intro s u _ _ _ hrun; cases hrun; exact .of_wire_eq rfl
  | succ n ih =>
    intro s u hinv hp hrelease hrun
    obtain ⟨t, hstep, hinv', hp', hrelease', hrest⟩ := exists_step_of_run_succ_idle hinv hp hrelease hrun
    exact (step_appendsNoReset hinv hp hstep).trans (ih hinv' hp' hrelease' hrest)

/-- Settles O42: the constructing step, then induction on the number of steps under the invariant. -/
theorem oneResetTrainPerDriver : Obligations.OneResetTrainPerDriver := fun s t hinv hunbound hstep hidle =>
  ⟨wire_of_step_constructing hunbound hstep hidle,
    fun n _ => run_appendsNoReset n (stepKeepsInvariant s t hinv hstep) hidle⟩

end Sys2Proof.Machine
end

section
/-! The refusals of `NEW` (40_construct.md R111, R115) and its worked example (R121). -/

namespace Sys2Proof.Machine

theorem execNew_of_bound {s : State} (hp : s.phase ≠ .unbound) : execNew s = refuse .newWhileBound s := by
  rcases execNew_cases s with ⟨-, refused⟩ | ⟨hunbound, -⟩
  · exact refused
  · exact absurd hunbound hp

/-- Settles O20: the check on `PHASE` is the first of `NEW`. -/
theorem newWhileBoundRefused : Obligations.NewWhileBoundRefused := fun _ hp => execNew_of_bound hp

/-- A zero duration that is the only fault of calibration refuses `NEW` before anything is transmitted. -/
theorem execNew_of_calibrationZero {s : State} (hp : s.phase = .unbound) (hcfg : s.draws.cfgOk = true)
    (hclk : s.draws.clkOk = true) (fits : calibrationOverflows s.inst.maxTicks s.ticksHz = false)
    (zero : calibrationZero s.ticksHz = true) : execNew s = refuse .zeroTickPulse s := by
  rcases execNew_cases s with ⟨hbound, -⟩ | ⟨-, ⟨hc, -⟩ | ⟨-, hk, -⟩ | ⟨-, -, ⟨ho, -⟩ | ⟨-, -, refused⟩ |
    ⟨-, nonzero, -⟩⟩⟩
  · exact absurd hp hbound
  · simp [hcfg] at hc
  · simp [hclk] at hk
  · simp [fits] at ho
  · exact refused
  · simp [zero] at nonzero

theorem calibrationZero_of_le {f : Nat} (hf : f ≤ 1428571) : calibrationZero f = true := by
  rw [← Bool.not_eq_false, calibrationZero_eq_false_iff]
  omega

/-- Settles O19: below the threshold the check of 40_construct.md R115(b) is the first to fail. -/
theorem newZeroTickRefused : Obligations.NewZeroTickRefused := fun _ hp hcfg hclk hfreq hle =>
  execNew_of_calibrationZero hp hcfg hclk (calibrationOverflows_eq_false_of_le hle) (calibrationZero_of_le hfreq)

/-- At 40 000 000 ticks per second a tick is 25 ns (40_construct.md R121). -/
theorem durationNs_fortyMegahertz (n : Nat) : durationNs n 40000000 = 25 * n := by
  simp only [durationNs, nsPerS]
  push_cast
  ring

/-- Settles O22: the state `NEW` constructs (R117), its frequency and wire put in. -/
theorem newAtFortyMegahertz : Obligations.NewAtFortyMegahertz := by
  intro s hreset hwire hdraws hmax hfreq
  refine ⟨?_, ?_, ?_⟩
  · rw [newConstructsDriver s hreset.phase (by rw [hdraws]; rfl) (by rw [hdraws]; rfl) (by rw [hdraws]; rfl)
      (by rw [hfreq]; decide) (by simp [hmax]), hwire, hfreq]
    rfl
  · norm_num [durationNs_fortyMegahertz]
  · norm_num [durationNs_fortyMegahertz, trainTicks]

end Sys2Proof.Machine
end

section
/-! `SET_PIXEL` (41_set_pixel.md): the train of a colour channel by channel (R144), its endings with and without a
Driver (R141, R147), what it reads (R140), and its worked example (R150). -/

namespace Sys2Proof.Machine

/-- The pulses of one colour channel, most significant bit first (41_set_pixel.md R143, 20_memory.md R56). -/
def channelTrain (p0 p1 : Pair) (c : Byte) : Train :=
  (List.range 8).flatMap fun k => if c.getLsbD (7 - k) then p1.pulses else p0.pulses

/-- The eight slots from slot `first` on spell the channel whose bits the packed value holds there, top bit first. -/
theorem flatMap_slots_eq_channelTrain (p0 p1 : Pair) {v : BitVec 24} {c : Byte} {first : Nat}
    (hbits : ∀ k, k < 8 → v.getLsbD (23 - (first + k)) = c.getLsbD (7 - k)) :
    ((List.range 8).map (first + ·)).flatMap (fun k => (if v.getLsbD (23 - k) then p1 else p0).pulses) =
      channelTrain p0 p1 c := by
  rw [List.flatMap_map]
  refine List.flatMap_congr fun k hk => ?_
  rw [hbits k (List.mem_range.mp hk), apply_ite Pair.pulses]

/-- The train of a colour is its green, its red, then its blue channel (41_set_pixel.md R144). -/
theorem pixelTrain_pack (p0 p1 : Pair) (r g b : Byte) :
    pixelTrain p0 p1 (pack r g b) = channelTrain p0 p1 g ++ channelTrain p0 p1 r ++ channelTrain p0 p1 b := by
  have slots : List.range nBits =
      (List.range 8).map (0 + ·) ++ (List.range 8).map (8 + ·) ++ (List.range 8).map (16 + ·) := by decide
  rw [pixelTrain, slots, List.flatMap_append, List.flatMap_append]
  refine congrArg₂ (· ++ ·) (congrArg₂ (· ++ ·) ?green ?red) ?blue
  case green =>
    refine flatMap_slots_eq_channelTrain p0 p1 fun k hk => ?_
    rw [show 23 - (0 + k) = 16 + (7 - k) by omega, getLsbD_pack_green r g b (by omega)]
  case red =>
    refine flatMap_slots_eq_channelTrain p0 p1 fun k hk => ?_
    rw [show 23 - (8 + k) = 8 + (7 - k) by omega, getLsbD_pack_red r g b (by omega)]
  case blue =>
    refine flatMap_slots_eq_channelTrain p0 p1 fun k hk => ?_
    rw [show 23 - (16 + k) = 7 - k by omega, getLsbD_pack_blue r g b (by omega)]

section
variable {s s' : State}

/-- With four registers that hold pulses the scan comes to no unwritten read (10_state.md R23). -/
theorem State.filledTrain_of_registers {h0 l0 h1 l1 : Pulse} (ht0h : s.t0h = some h0) (ht0l : s.t0l = some l0)
    (ht1h : s.t1h = some h1) (ht1l : s.t1l = some l1) (v : BitVec 24) :
    s.filledTrain v = some (pixelTrain ⟨h0, l0⟩ ⟨h1, l1⟩ v) := by
  obtain ⟨buf, hfill, htrain⟩ := scanFill_assemble s v s.train ⟨h0, l0⟩ ⟨h1, l1⟩
    (by simp [State.select, State.readCal, ht0h, ht0l]) (by simp [State.select, State.readCal, ht1h, ht1l])
  simp [State.filledTrain, hfill, htrain]

/-- A `SET_PIXEL` with a Driver that makes a train the hardware layer does not accept (41_set_pixel.md R147). -/
theorem exec_setPixel_of_txFails {r g b : Byte} {tr : Train} (hp : s.phase = .idle) (htx : s.draws.txOk = false)
    (h : s.filledTrain (pack r g b) = some tr) :
    exec (.setPixel r g b) s = .next ((s.afterPixel .unspecified).respond (.err .transmitError)) := by
  obtain ⟨buf, hfill⟩ := pixelFill_of_filledTrain_some h
  rw [exec_setPixel_of_idle r g b hp, hfill]
  simp only [pixelTransmit, State.transmit, State.setPhase_draws, State.setTrain_draws, htx]
  rfl

/-- A `SET_PIXEL` with a Driver that comes to an unwritten register (10_state.md R23). -/
theorem exec_setPixel_of_filledTrain_none {r g b : Byte} (hp : s.phase = .idle)
    (h : s.filledTrain (pack r g b) = none) :
    exec (.setPixel r g b) s = .next (s.markRefused .unwrittenRead) :=
  (exec_setPixel_of_idle r g b hp).trans (pixelFill_of_filledTrain_none h)

theorem exec_setPixel_of_not_idle (r g b : Byte) (hp : s.phase ≠ .idle) :
    exec (.setPixel r g b) s = .next (s.markRefused .setPixelWithoutDriver) := by
  rcases execSetPixel_cases s r g b with ⟨-, refused⟩ | ⟨hidle, -⟩
  · exact refused
  · exact absurd hidle hp

/-- States that agree on the phase, the registers and `tx_ok` are refused for one reason, or put one event on the wire
and answer alike (41_set_pixel.md R140). -/
theorem exec_setPixel_alike (r g b : Byte) (hphase : s.phase = s'.phase) (h0h : s.t0h = s'.t0h)
    (h0l : s.t0l = s'.t0l) (h1h : s.t1h = s'.t1h) (h1l : s.t1l = s'.t1l) (htx : s.draws.txOk = s'.draws.txOk) :
    (∃ why, exec (.setPixel r g b) s = .next (s.markRefused why) ∧
      exec (.setPixel r g b) s' = .next (s'.markRefused why)) ∨
    (∃ e answer, exec (.setPixel r g b) s = .next ((s.afterPixel e).respond answer) ∧
      exec (.setPixel r g b) s' = .next ((s'.afterPixel e).respond answer)) := by
  by_cases hp : s.phase = .idle
  · have hp' := hphase.symm.trans hp
    have hsame := State.filledTrain_congr (State.select_congr h0h h0l h1h h1l) (pack r g b)
    cases htrain : s.filledTrain (pack r g b) with
    | none =>
      exact .inl ⟨_, exec_setPixel_of_filledTrain_none hp htrain,
        exec_setPixel_of_filledTrain_none hp' (hsame.symm.trans htrain)⟩
    | some tr =>
      have htrain' := hsame.symm.trans htrain
      cases hok : s.draws.txOk with
      | true =>
        exact .inr ⟨_, _, exec_setPixel_of_filledTrain hp hok htrain,
          exec_setPixel_of_filledTrain hp' (htx.symm.trans hok) htrain'⟩
      | false =>
        exact .inr ⟨_, _, exec_setPixel_of_txFails hp hok htrain,
          exec_setPixel_of_txFails hp' (htx.symm.trans hok) htrain'⟩
  · exact .inl ⟨_, exec_setPixel_of_not_idle r g b hp, exec_setPixel_of_not_idle r g b (hphase ▸ hp)⟩

end

/-- Settles O23: the train that the registers and the colour make is sent, and it is the three channels one after the
other. -/
theorem setPixelSendsTrain : Obligations.SetPixelSendsTrain := by
  intro s r g b h0 l0 h1 l1 hp ht0h ht0l ht1h ht1l htx
  rw [exec_setPixel_of_filledTrain hp htx (State.filledTrain_of_registers ht0h ht0l ht1h ht1l _), pixelTrain_pack, hp]
  rfl

/-- Settles O24: a train is made and not accepted. -/
theorem setPixelTransmitError : Obligations.SetPixelTransmitError := by
  intro s r g b h0 l0 h1 l1 hp ht0h ht0l ht1h ht1l htx
  rw [exec_setPixel_of_txFails hp htx (State.filledTrain_of_registers ht0h ht0l ht1h ht1l _), hp]
  rfl

/-- Settles O27: both commands end by the same update, which appends and leaves the same. -/
theorem setPixelReadsOnlyItsInputs : Obligations.SetPixelReadsOnlyItsInputs := by
  intro s s' t r g b hphase h0h h0l h1h h1l htx hexec
  rcases exec_setPixel_alike r g b hphase h0h h0l h1h h1l htx with
    ⟨why, refused, refused'⟩ | ⟨e, answer, ended, ended'⟩
  · cases refused.symm.trans hexec
    exact ⟨_, [], [], [why], true, refused', hphase.symm, by simp⟩
  · cases ended.symm.trans hexec
    exact ⟨_, [e], [answer], [], false, ended', rfl, by simp [emptyBuffer]⟩

/-- Settles O25: the check on `PHASE` is the first of `SET_PIXEL`. -/
theorem setPixelWithoutDriverRefused : Obligations.SetPixelWithoutDriverRefused := fun _ =>
  exec_setPixel_of_not_idle

/-- Settles O29: 21 zero bits of 46 ticks and 3 one bits of 52, at 25 ns a tick. -/
theorem redFiftyTrain : Obligations.RedFiftyTrain := by
  refine ⟨by decide, by decide, by decide, ?_⟩
  norm_num [durationNs_fortyMegahertz]

end Sys2Proof.Machine
end

section
/-! Errors and refusals (60_exceptions.md R170 to R185): which command and state an error comes from and the state it
leaves, what a refusal keeps, and the retry after a failed transmission. -/

namespace Sys2Proof.Machine

theorem calibrationOverflows_eq_true_of_lt {maxTicks : Option Nat} {f : Nat}
    (hlt : ∃ m, maxTicks = some m ∧ ∃ ns ∈ [350, 800, 700, 600], m < ticks ns f) :
    calibrationOverflows maxTicks f = true := by
  rw [← Bool.not_eq_false]
  intro fits
  obtain ⟨m, hm, ns, hns, hlt⟩ := hlt
  obtain ⟨h350, h800, h700, h600⟩ := (calibrationOverflows_eq_false_iff maxTicks f).mp fits m hm
  have hle : ∀ ns ∈ [350, 800, 700, 600], ticks ns f ≤ m := by simp [h350, h800, h700, h600]
  exact absurd (hle ns hns) hlt.not_ge

section
variable {s t : State}

/-- Whichever of its three configuration checks is the first to fail, `NEW` ends in the same way (60_exceptions.md
R175). -/
theorem execNew_of_configFails (hp : s.phase = .unbound)
    (hfail : s.draws.cfgOk = false ∨ s.draws.clkOk = false ∨
      calibrationOverflows s.inst.maxTicks s.ticksHz = true) :
    execNew s = abortNew .hardwareConfigError s := by
  rcases execNew_cases s with ⟨hbound, -⟩ | ⟨-, ⟨-, aborts⟩ | ⟨-, -, aborts⟩ | ⟨hcfg, hclk, ⟨-, aborts⟩ |
    ⟨fits, -⟩ | ⟨fits, -⟩⟩⟩
  · exact absurd hp hbound
  · exact aborts
  · exact aborts
  · exact aborts
  · simp [hcfg, hclk, fits] at hfail
  · simp [hcfg, hclk, fits] at hfail

/-- With every earlier check passed the reset transmission is the one thing that can fail (40_construct.md R116). -/
theorem execNew_of_txFails (hp : s.phase = .unbound) (hcfg : s.draws.cfgOk = true) (hclk : s.draws.clkOk = true)
    (fits : calibrationOverflows s.inst.maxTicks s.ticksHz = false) (nonzero : calibrationZero s.ticksHz = false)
    (htx : s.draws.txOk = false) : execNew s = abortNew .transmitError (s.emit .unspecified) := by
  rcases execNew_cases s with ⟨hbound, -⟩ | ⟨-, ⟨hc, -⟩ | ⟨-, hk, -⟩ | ⟨-, -, ⟨ho, -⟩ | ⟨-, hz, -⟩ |
    ⟨-, -, ⟨-, aborts⟩ | ⟨ht, -⟩⟩⟩⟩
  · exact absurd hp hbound
  · simp [hcfg] at hc
  · simp [hclk] at hk
  · simp [fits] at ho
  · simp [nonzero] at hz
  · exact aborts
  · simp [htx] at ht

/-- A command returns `HardwareConfigError` only as a `NEW` that never came to its transmission. -/
theorem CommandEffect.eq_of_configError {i : Instr} (heff : CommandEffect i s t)
    (herr : t.results = s.results ++ [.err .hardwareConfigError]) :
    i = .new ∧ t = s.unbind.respond (.err .hardwareConfigError) := by
  rcases heff with ⟨why, rfl⟩ | ⟨hi, -, rfl | rfl | ⟨-, -, rfl⟩⟩ | ⟨_, _, _, -, -, ⟨tr, -, rfl⟩ | rfl⟩
  · simp at herr
  · exact ⟨hi, rfl⟩
  · simp at herr
  · simp at herr
  · simp at herr
  · simp at herr

/-- A command shows neither sign of a failed transmission, or it is a `NEW` or a `SET_PIXEL` whose transmission failed
and shows both (60_exceptions.md R172). -/
theorem CommandEffect.transmitError_cases {i : Instr} (heff : CommandEffect i s t) :
    (t.results ≠ s.results ++ [.err .transmitError] ∧ t.wire ≠ s.wire ++ [.unspecified]) ∨
    (i = .new ∧ s.phase = .unbound ∧ t = (s.emit .unspecified).unbind.respond (.err .transmitError)) ∨
    (∃ r g b, i = .setPixel r g b ∧ s.phase = .idle ∧
      t = (s.afterPixel .unspecified).respond (.err .transmitError)) := by
  rcases heff with ⟨why, rfl⟩ | ⟨hi, hp, rfl | failed | ⟨-, -, rfl⟩⟩ | ⟨r, g, b, hi, hp, ⟨tr, -, rfl⟩ | failed⟩
  · exact .inl (by simp)
  · exact .inl (by simp)
  · exact .inr (.inl ⟨hi, hp, failed⟩)
  · exact .inl (by simp)
  · exact .inl (by simp)
  · exact .inr (.inr ⟨r, g, b, hi, hp, failed⟩)

theorem CommandEffect.transmitError_iff {i : Instr} (heff : CommandEffect i s t) :
    t.results = s.results ++ [.err .transmitError] ↔ t.wire = s.wire ++ [.unspecified] := by
  rcases heff.transmitError_cases with ⟨hresults, hwire⟩ | ⟨-, -, rfl⟩ | ⟨_, _, _, -, -, rfl⟩
  · exact iff_of_false hresults hwire
  · exact iff_of_true rfl rfl
  · exact iff_of_true rfl rfl

/-- A command is refused, or the mark and the reasons stay as they were (60_exceptions.md R185). -/
theorem CommandEffect.refusal {i : Instr} (heff : CommandEffect i s t) :
    (t.refusals = s.refusals ∧ t.refused = s.refused) ∨ ∃ why, t = s.markRefused why := by
  rcases heff with refused | ⟨-, -, rfl | rfl | ⟨-, -, rfl⟩⟩ | ⟨_, _, _, -, -, ⟨tr, -, rfl⟩ | rfl⟩
  · exact .inr refused
  all_goals exact .inl ⟨rfl, rfl⟩

/-- `SET_PIXEL` makes its train of the registers of the Driver alone (41_set_pixel.md R140). -/
theorem State.SameDriver.filledTrain (h : s.SameDriver t) (v : BitVec 24) : t.filledTrain v = s.filledTrain v :=
  State.filledTrain_congr (State.select_congr h.t0h h.t0l h.t1h h.t1l) v

theorem State.SameDriver.exec_setPixel {r g b : Byte} {tr : Train} (h : s.SameDriver t) (hp : s.phase = .idle)
    (htx : t.draws.txOk = true) (htrain : s.filledTrain (pack r g b) = some tr) :
    exec (.setPixel r g b) t = .next ((t.afterPixel (.sent tr)).respond .ok) :=
  exec_setPixel_of_filledTrain (h.phase.trans hp) htx ((h.filledTrain _).trans htrain)

/-- Only a command that the port runs gives a response or puts anything on the wire. -/
theorem step_runs_command_or_silent (hstep : step s = .next t) :
    (t.results = s.results ∧ t.wire = s.wire) ∨
    ∃ w d rest i, s.inputs = .command w d :: rest ∧ decode w = .ok i ∧
      CommandEffect i ((s.setInputs rest).setDraws d) t := by
  rcases step_cases hstep with ⟨-, rfl⟩ | ⟨e, rest, hin, hcase⟩
  · exact .inl ⟨rfl, rfl⟩
  rcases hcase with ⟨-, why, rfl⟩ | ⟨-, rfl⟩ | ⟨-, -, rfl⟩ | ⟨hz, -, -, rfl⟩ |
    ⟨w, d, rfl, ⟨why, rfl⟩ | ⟨i, hdecode, -, heff⟩⟩
  · exact .inl ⟨rfl, rfl⟩
  · exact .inl ⟨rfl, rfl⟩
  · exact .inl ⟨rfl, rfl⟩
  · exact .inl ⟨rfl, rfl⟩
  · exact .inl ⟨rfl, rfl⟩
  · exact .inr ⟨w, d, rest, i, hin, hdecode, heff⟩

end

/-- Settles O18: the first three clauses fail a configuration check, the last one the reset transmission only. -/
theorem newReportsFirstError : Obligations.NewReportsFirstError := by
  refine fun s hp => ⟨fun hcfg => ?_, fun _ hclk => ?_, fun _ _ hlt => ?_, fun hcfg hclk hfreq hle htx => ?_⟩
  · exact execNew_of_configFails hp (.inl hcfg)
  · exact execNew_of_configFails hp (.inr (.inl hclk))
  · exact execNew_of_configFails hp (.inr (.inr (calibrationOverflows_eq_true_of_lt hlt)))
  · exact execNew_of_txFails hp hcfg hclk (calibrationOverflows_eq_false_of_le hle)
      ((calibrationZero_eq_false_iff _).mpr hfreq) htx

/-- Settles O30: the response comes from a command, which is a `NEW` that ended in `State.unbind`. -/
theorem configErrorOnlyFromNew : Obligations.ConfigErrorOnlyFromNew := by
  intro s t hstep herr
  rcases step_runs_command_or_silent hstep with ⟨hsilent, -⟩ | ⟨w, d, rest, i, hin, hdecode, heff⟩
  · simp [hsilent] at herr
  · obtain ⟨rfl, rfl⟩ := heff.eq_of_configError herr
    obtain rfl := eq_of_decode_eq_new hdecode
    exact ⟨⟨d, rest, hin⟩, rfl, (State.unbind_resetValues _).respond _⟩

/-- Settles O31: a silent step shows neither sign, and a command shows both or neither. -/
theorem transmitErrorIffUnspecified : Obligations.TransmitErrorIffUnspecified := by
  refine ⟨fun s t hstep => ?_, fun s t hstep herr => ?_, fun i => ?_⟩
  · rcases step_runs_command_or_silent hstep with ⟨hresults, hwire⟩ | ⟨w, d, rest, i, -, -, heff⟩
    · exact iff_of_false (by simp [hresults]) (by simp [hwire])
    · exact heff.transmitError_iff
  · rcases step_runs_command_or_silent hstep with ⟨hsilent, -⟩ | ⟨w, d, rest, i, hin, hdecode, heff⟩
    · simp [hsilent] at herr
    rcases heff.transmitError_cases with ⟨hresults, -⟩ | ⟨rfl, hp, rfl⟩ | ⟨r, g, b, rfl, hp, rfl⟩
    · exact absurd herr hresults
    · obtain rfl := eq_of_decode_eq_new hdecode
      exact .inl ⟨hp, ⟨d, rest, hin⟩, (State.unbind_resetValues _).respond _⟩
    · obtain rfl := encode_of_decode hdecode
      exact .inr ⟨hp, ⟨r, g, b, d, rest, hin⟩, rfl, rfl, rfl, rfl, rfl, rfl, rfl, rfl⟩
  · cases i with
    | new => exact exec_new_can_return _
    | setPixel r g b => exact (exec_setPixel_can_return_iff r g b _).mp (by decide)

/-- Settles O32: a refusal is `State.markRefused` of the state with the event taken and, for a command, its draws set
up. -/
theorem refusalChangesNothingElse : Obligations.RefusalChangesNothingElse := by
  intro s t hstep
  rcases step_cases hstep with ⟨-, rfl⟩ | ⟨e, rest, hin, hcase⟩
  · exact .inl ⟨rfl, rfl⟩
  rcases hcase with ⟨hne, why, rfl⟩ | ⟨-, rfl⟩ | ⟨-, -, rfl⟩ | ⟨hz, -, -, rfl⟩ | ⟨w, d, rfl, hcommand⟩
  · refine .inr ⟨why, e, rest, hin, ?_⟩
    cases e with
    | command w d => exact absurd rfl (hne w d)
    | _ => rfl
  · exact .inl ⟨rfl, rfl⟩
  · exact .inl ⟨rfl, rfl⟩
  · exact .inl ⟨rfl, rfl⟩
  rcases hcommand with ⟨why, rfl⟩ | ⟨i, -, -, heff⟩
  · exact .inr ⟨why, _, rest, hin, rfl⟩
  rcases heff.refusal with kept | ⟨why, rfl⟩
  · exact .inl kept
  · exact .inr ⟨why, _, rest, hin, rfl⟩

/-- Settles O44: the failed attempt leaves the Driver, so the retry makes the train of the first attempt. -/
theorem retryAfterTransmitError : Obligations.RetryAfterTransmitError := by
  intro s t r g b d rest hinv hp htx hexec htxRetry hin
  have htrain := (hinv.idle hp).filledTrain (pack r g b)
  have heff := commandEffect_of_exec hexec
  have failed : s.SameDriver t := heff.sameDriver_of_setPixel
  obtain ⟨-, -, -, hinputs, -⟩ := heff.frame
  have hstep := step_of_command (hinputs.trans hin) (by simp [failed.phase, hp]) (decode_encode (.setPixel r g b))
  have retried : s.SameDriver ((t.setInputs rest).setDraws d) :=
    (failed.trans (t.sameDriver_setInputs rest)).trans (State.sameDriver_setDraws _ d)
  have hretry := retried.exec_setPixel hp htxRetry htrain
  have hfirst := (s.sameDriver_setDraws d).exec_setPixel hp htxRetry htrain
  cases (exec_setPixel_of_txFails hp htx htrain).symm.trans hexec
  exact ⟨_, _, _, hstep.trans hretry, by simp, by simp, hfirst, rfl⟩

end Sys2Proof.Machine
end

section
/-! The length of a pixel train (70_reset_and_hazards.md R214, R215): in ticks by its one-bits, and in nanoseconds where
calibration is exact. -/

namespace Sys2Proof.Machine

@[simp] theorem trainTicks_append (tr tr' : Train) : trainTicks (tr ++ tr') = trainTicks tr + trainTicks tr' := by
  simp [trainTicks]

@[simp] theorem trainTicks_pulses (p : Pair) : trainTicks p.pulses = p.high.ticks + p.low.ticks := rfl

/-- Slots that hold one pair for each bit last as long as their zero bits and their one bits together. -/
theorem trainTicks_flatMap_pulses (p0 p1 : Pair) (bit : Nat → Bool) (slots : List Nat) :
    trainTicks (slots.flatMap fun k => (if bit k then p1 else p0).pulses) =
      (slots.countP fun k => ¬ bit k) * trainTicks p0.pulses + slots.countP bit * trainTicks p1.pulses := by
  induction slots with
  | nil => simp [trainTicks]
  | cons k slots ih =>
    rw [List.flatMap_cons, trainTicks_append, ih]
    cases hbit : bit k <;> simp [hbit] <;> ring

theorem countOnes_le (v : BitVec 24) : countOnes v ≤ 24 :=
  List.length_filter_le _ _

/-- The slots hold the bits from the top down, so as many of them are ones (20_memory.md R56). -/
theorem countP_slots (v : BitVec 24) :
    ((List.range nBits).countP fun k => v.getLsbD (nBits - 1 - k)) = countOnes v := by
  have top_down : (List.range nBits).map (nBits - 1 - ·) = (List.range nBits).reverse := by decide
  calc ((List.range nBits).countP fun k => v.getLsbD (nBits - 1 - k))
      = ((List.range nBits).map (nBits - 1 - ·)).countP v.getLsbD := List.countP_map.symm
    _ = (List.range nBits).countP v.getLsbD := by rw [top_down, List.countP_reverse]
    _ = countOnes v := List.countP_eq_length_filter

/-- Each 0 bit lasts the two pulses of one pair, each 1 bit those of the other (41_set_pixel.md R148(e)). -/
theorem trainTicks_pixelTrain (p0 p1 : Pair) (v : BitVec 24) :
    trainTicks (pixelTrain p0 p1 v) =
      (24 - countOnes v) * (p0.high.ticks + p0.low.ticks) + countOnes v * (p1.high.ticks + p1.low.ticks) := by
  have zeros : ((List.range nBits).countP fun k => ¬ v.getLsbD (nBits - 1 - k)) = 24 - countOnes v := by
    refine Nat.eq_sub_of_add_eq' ?_
    rw [← countP_slots, ← List.length_eq_countP_add_countP, List.length_range, nBits]
  rw [pixelTrain, trainTicks_flatMap_pulses, zeros, countP_slots, trainTicks_pulses, trainTicks_pulses]

/-- A number of ticks that is a whole number of nanoseconds lasts that many (70_reset_and_hazards.md R214). -/
theorem durationNs_eq_of_exact {n f ns : Nat} (hf : 0 < f) (h : n * 1000000000 = ns * f) : durationNs n f = ns := by
  have hne : (f : Rat) ≠ 0 := by exact_mod_cast hf.ne'
  rw [durationNs, show n * nsPerS = ns * f from h, Nat.cast_mul, mul_div_cancel_right₀ _ hne]

/-- Where calibration is exact the two pulses of a pair together last as long as their targets. -/
theorem ticks_add_target_exact {f ns ns' : Nat} (hexact : 20000000 ∣ f) (hns : ns ∈ [350, 800, 700, 600])
    (hns' : ns' ∈ [350, 800, 700, 600]) : (ticks ns f + ticks ns' f) * 1000000000 = (ns + ns') * f := by
  rw [Nat.add_mul, ticks_target_exact hexact hns, ticks_target_exact hexact hns', Nat.add_mul]

/-- With exact calibration a pixel train lasts 1150 ns for each 0 bit and 1300 ns for each 1 bit. -/
theorem durationNs_pixelTrain {f : Nat} (hf : 0 < f) (hexact : 20000000 ∣ f) (v : BitVec 24) :
    durationNs (trainTicks (pixelTrain (zeroPair f) (onePair f) v)) f =
      (((24 - countOnes v) * 1150 + countOnes v * 1300 : Nat) : Rat) := by
  have hzero : ((zeroPair f).high.ticks + (zeroPair f).low.ticks) * 1000000000 = 1150 * f :=
    ticks_add_target_exact (ns := 350) (ns' := 800) hexact (by decide) (by decide)
  have hone : ((onePair f).high.ticks + (onePair f).low.ticks) * 1000000000 = 1300 * f :=
    ticks_add_target_exact (ns := 700) (ns' := 600) hexact (by decide) (by decide)
  refine durationNs_eq_of_exact hf ?_
  rw [trainTicks_pixelTrain]
  linear_combination (24 - countOnes v) * hzero + countOnes v * hone

/-- Settles O16: the ticks by one-bits, the nanoseconds they last, and the two ends evaluated. -/
theorem pixelTrainDuration : Obligations.PixelTrainDuration := by
  refine ⟨fun p0 p1 v => ⟨countOnes_le v, trainTicks_pixelTrain p0 p1 v⟩, fun f v hf hexact => ?_, by decide⟩
  have hle := countOnes_le v
  exact ⟨durationNs_pixelTrain hf hexact v, by omega, by omega⟩

end Sys2Proof.Machine
end

section
/-! The end of a Driver and construction after it (70_reset_and_hazards.md R202, R203), construction outside the
tolerance (R217), and commands that overlap (R209). -/

namespace Sys2Proof.Machine

theorem execRelease_of_not_idle {s : State} (hp : s.phase ≠ .idle) :
    execRelease s = refuse .releaseWithoutDriver s := by
  unfold execRelease
  split
  · exact absurd ‹_› hp
  · rfl
  · rfl

theorem step_of_release {s : State} {rest : List HostEvent} (hin : s.inputs = .release :: rest) :
    step s = execRelease (s.setInputs rest) :=
  step_of_inputs s _ rest hin

/-- Settles O40: the state written out first is `State.unbind` of the state without the event. -/
theorem releaseDestroysDriver : Obligations.ReleaseDestroysDriver := fun _ _ hin =>
  ⟨fun hp => (step_of_release hin).trans (execRelease_of_idle hp),
    fun hp => (step_of_release hin).trans (execRelease_of_not_idle hp)⟩

/-- A busy command port does not decode the word it refuses (70_reset_and_hazards.md R209, log 32). -/
theorem offerCommand_of_transmitting {s : State} (w : Word) (hp : s.phase = .transmitting) :
    offerCommand w s = refuse .concurrentCommand s := by
  simp [offerCommand, State.busy, hp]

/-- Settles O45: an overlapping word and a word at a busy port get the same refusal. -/
theorem concurrentCommandRefused : Obligations.ConcurrentCommandRefused := fun s w _ rest =>
  ⟨fun hin => step_of_inputs s _ rest hin,
    fun hin hp => (step_of_inputs s _ rest hin).trans (offerCommand_of_transmitting w hp)⟩

/-- Without a Driver the frequency `NEW` will read may change (70_reset_and_hazards.md R210). -/
theorem step_of_tickRate_unbound {s : State} {hz : Nat} {rest : List HostEvent}
    (hin : s.inputs = .tickRate hz :: rest) (hp : s.phase = .unbound) :
    step s = .next ((s.setInputs rest).setTicksHz hz) := by
  rw [step_of_inputs s _ rest hin, handleEvent, clockChange_eq, State.setInputs_phase, if_pos hp]

/-- With every request answered `NEW` constructs at every frequency whose durations last and fit (40_construct.md
R117). -/
theorem exec_new_constructs {s : State} (hp : s.phase = .unbound) (hdraws : s.draws = Draws.allTrue)
    (hfreq : 1428572 ≤ s.ticksHz)
    (hle : ∀ m, s.inst.maxTicks = some m → ∀ ns ∈ [350, 800, 700, 600], ticks ns s.ticksHz ≤ m) :
    exec .new s = .next (s.constructed.respond .ok) :=
  execNew_eq_returnOk_constructed hp (hdraws ▸ rfl) (hdraws ▸ rfl) (hdraws ▸ rfl)
    (calibrationOverflows_eq_false_of_le hle) ((calibrationZero_eq_false_iff _).mpr hfreq)

/-- Settles O21: `NEW` checks for durations of zero ticks and above `MAX_TICKS` only, and 2 000 000 gives neither. -/
theorem toleranceNotEnforced : Obligations.ToleranceNotEnforced := by
  refine ⟨by decide, fun s hp hdraws hmax hfreq => ?_⟩
  have hexec := exec_new_constructs hp hdraws (by simp [hfreq]) (by simp [hmax])
  exact ⟨_, hexec, rfl, rfl, rfl⟩

/-- While no Driver exists only a `NEW` gives a response (41_set_pixel.md R141). -/
theorem CommandEffect.eq_new_of_response {i : Instr} {s t : State} {r : Result} (heff : CommandEffect i s t)
    (hp : s.phase = .unbound) (hresponse : t.results = s.results ++ [r]) : i = .new := by
  rcases heff with ⟨why, rfl⟩ | ⟨hi, -⟩ | ⟨_, _, _, -, hidle, -⟩
  · simp at hresponse
  · exact hi
  · simp [hp] at hidle

/-- `RELEASE` with a Driver comes back to the reset values. -/
theorem resetValues_of_step_release {s t : State} {rest : List HostEvent} (hp : s.phase = .idle)
    (hin : s.inputs = .release :: rest) (hstep : step s = .next t) :
    t.ResetValues ∧ t.refused = s.refused ∧ t.inst = s.inst := by
  cases ((step_of_release hin).trans (execRelease_of_idle hp)).symm.trans hstep
  exact ⟨State.unbind_resetValues _, rfl, rfl⟩

/-- So does the step of a `NEW` that fails, whatever its cause. -/
theorem resetValues_of_step_err {s t : State} {e : HwError} (hp : s.phase = .unbound) (hstep : step s = .next t)
    (herr : t.results = s.results ++ [.err e]) : t.ResetValues ∧ t.refused = s.refused ∧ t.inst = s.inst := by
  rcases step_runs_command_or_silent hstep with ⟨hsilent, -⟩ | ⟨w, d, rest, i, -, -, heff⟩
  · simp [hsilent] at herr
  · obtain rfl := heff.eq_new_of_response hp herr
    obtain ⟨hreset, hmark⟩ := heff.resetValues_of_err herr
    obtain ⟨hinst, -⟩ := heff.frame
    exact ⟨hreset, hmark, hinst⟩

/-- A change of frequency and a `NEW`, one after the other, construct at the new frequency. -/
theorem run_tickRate_new {s : State} {hz : Nat} {rest : List HostEvent} (hp : s.phase = .unbound)
    (hin : s.inputs = .tickRate hz :: .command 0x01000000#32 Draws.allTrue :: rest) (hfreq : 1428572 ≤ hz)
    (hle : ∀ m, s.inst.maxTicks = some m → ∀ ns ∈ [350, 800, 700, 600], ticks ns hz ≤ m) :
    Host.Core.run core 2 s =
      .next ((((s.setTicksHz hz).setInputs rest).setDraws Draws.allTrue).constructed.respond .ok) := by
  have change := step_of_tickRate_unbound hin hp
  have run_new := step_of_command (s := (s.setInputs (.command 0x01000000#32 Draws.allTrue :: rest)).setTicksHz hz)
    rfl (by simp [hp]) (decode_encode .new)
  have construct := exec_new_constructs (s := ((s.setTicksHz hz).setInputs rest).setDraws Draws.allTrue)
    hp rfl hfreq hle
  exact (run_succ 1 change).trans (run_succ 0 (run_new.trans construct))

/-- Settles O43: both ways lead to the reset values, and from there the next two events construct. -/
theorem reconstructionStartsAfresh : Obligations.ReconstructionStartsAfresh := by
  intro s s1 hz rest _ hstep hended hin hfreq hle
  obtain ⟨hreset, hmark, hinst⟩ : s1.ResetValues ∧ s1.refused = s.refused ∧ s1.inst = s.inst := by
    rcases hended with ⟨hp, more, hrelease⟩ | ⟨hp, e, herr⟩
    · exact resetValues_of_step_release hp hrelease hstep
    · exact resetValues_of_step_err hp hstep herr
  have hrun := run_tickRate_new hreset.phase hin hfreq (by rwa [hinst])
  exact ⟨hreset, _, hrun, rfl, rfl, rfl, ⟨rfl, rfl, rfl, rfl⟩, rfl, by simp, by simp, rfl, by simp [hmark]⟩

end Sys2Proof.Machine
end

section
/-! What a reserved word decodes to, and the sample words of the command map (30_encoding.md R94, R96). -/

namespace Sys2Proof

/-- A word outside both rows of the command map is refused for its `arg` when `op` is that of `NEW`, else for its
`op`. -/
theorem decode_of_reserved {w : Word} (hnew : w ≠ encode .new) (hop : opField w ≠ 0x02#8) :
    decode w = if opField w = 0x01#8 then .error (.reservedArg (argField w)) else .error (.reservedOp (opField w)) := by
  have hrowNew : ¬ selectsRow newMask newMatch w = true := mt (selectsRow_new_iff w).mp hnew
  have hrowPixel : ¬ selectsRow setPixelMask setPixelMatch w = true := mt (selectsRow_setPixel_iff w).mp hop
  rw [decode, if_neg hrowNew, if_neg hrowPixel]

theorem decode_of_opField_one {w : Word} (hop : opField w = 0x01#8) (harg : argField w ≠ 0#24) :
    decode w = .error (.reservedArg (argField w)) := by
  have hnew : w ≠ encode .new := fun hword => harg ((eq_encode_new_iff w).mp hword).2
  rw [decode_of_reserved hnew (by simp [hop]), if_pos hop]

theorem decode_of_opField_reserved {w : Word} (hone : opField w ≠ 0x01#8) (htwo : opField w ≠ 0x02#8) :
    decode w = .error (.reservedOp (opField w)) := by
  have hnew : w ≠ encode .new := fun hword => hone ((eq_encode_new_iff w).mp hword).1
  rw [decode_of_reserved hnew htwo, if_neg hone]

theorem decodeTableWord_of_decode {nbits w : Nat} {i : Instr} (hbits : nbits ≤ 32)
    (hdecode : decode (tableWord nbits w) = .ok i) : decodeTableWord nbits w = some i := by
  rw [decodeTableWord, if_pos hbits, hdecode, Except.toOption]

/-- Settles O3: the legal words are encodings, the reserved ones are refused for their `arg` or their `op`. -/
theorem sampleWordsDecode : Obligations.SampleWordsDecode :=
  ⟨decode_encode .new, decode_of_opField_one (by decide) (by decide), decode_encode (.setPixel 0x12#8 0x34#8 0x56#8),
    decode_encode (.setPixel 50#8 0#8 0#8), decode_of_opField_reserved (by decide) (by decide),
    decode_of_opField_reserved (by decide) (by decide),
    decodeTableWord_of_decode (by decide) (decode_encode (.setPixel 170#8 85#8 255#8))⟩

end Sys2Proof
end
